-- ==== Sys2Proof/Word.lean ====
section
/-! DEFINITION. The plain words of the PL-1216: bytes, the numbers of its resources, lease handles. -/

namespace Sys2Proof

/-- One byte of a record or register. -/
abbrev Byte := BitVec 8

/-- Tenants are numbered 0 to 3 (00_scope.md 1.6). -/
abbrev TenantId := Fin 4
/-- Rails are numbered 0 to 11 (00_scope.md 1.6). -/
abbrev RailId := Fin 12
/-- Feeds are numbered 0 to 2 (00_scope.md 1.6). -/
abbrev FeedId := Fin 3
/-- Lease slots are numbered 0 to 15 (R1). -/
abbrev SlotId := Fin 16
/-- The 24 command contexts of the pool (R163). -/
abbrev CtxId := Fin 24

/-- Tenant 0, who alone may issue the admin commands (00_scope.md 1.5). -/
abbrev admin : TenantId := 0

/-- A lease handle: a slot number and a generation (00_scope.md 1.6 "Handles", R2). -/
structure Handle where
  slot : SlotId
  gen  : BitVec 12
  deriving DecidableEq, Repr

end Sys2Proof
end

