-- ==== Sys2Proof/Syntax.lean ====
section
/-! DEFINITION. The happenings of the PL-1216: one constructor of `Instr` for each row of spec/opcode_table.json,
with the row's operands. What the part reads on its bus or on a pin inside a happening is an operand of that row. -/

namespace Sys2Proof

/-- How a bus write ends (R161, R168, R172). -/
inductive BusEnd where
  | done   -- the write ended without error
  | error  -- a bus error
  deriving DecidableEq, Repr

/-- The two fault events a stage can report (R97). -/
inductive StageFault where
  | overcurrent
  | overtemperature
  deriving DecidableEq, Repr

/-- A write to DESCRIPTOR_BASE: all 64 bits, or one half alone (R199). -/
inductive BaseWrite where
  | whole (value : BitVec 64)
  | lower (value : BitVec 32)
  | upper (value : BitVec 32)
  deriving DecidableEq, Repr

/-- Which descriptor read ended: the one of a CONTROL action (R184, R185) or the one of an OPEN_TENANT (R157). -/
inductive DescriptorReader where
  | control
  | openTenant
  deriving DecidableEq, Repr

/-- The happenings of the part, one constructor per row of spec/opcode_table.json.

A ring command's row is the happening in which its block carries it out (R168). Its fields stand in the 64-byte record that
the tenant's command context holds (R161, R195), so its operand is the tenant alone; the admin commands are tenant 0's. -/
inductive Instr where
  -- R191
  | powerOn (sense0 sense1 sense2 : Bool)
  -- ring commands, R168
  | claim (t : TenantId)
  | adjust (t : TenantId)
  | release (t : TenantId)
  | revoke
  | renew (t : TenantId)
  | queryLease (t : TenantId)
  | queryRail (t : TenantId) (pgHigh : Bool)
  | queryBudget (t : TenantId)
  | queryTenant (t : TenantId)
  | setTiers
  | setRail
  | setFeed
  | setMargin
  | setQuota
  | setQueuePolicy
  | assignRail
  | clearLockout
  | offerRail (t : TenantId)
  | acceptRail (t : TenantId)
  | withdrawOffer (t : TenantId)
  | openTenant
  | closeTenant
  | startService
  | stopService
  -- CONTROL writes, R183
  | start
  | emergencyStop
  | softReset
  | adminReopen
  | unknownAction (code : Byte)
  -- other register writes, R182, R175, R199
  | descriptorBaseWrite (w : BaseWrite)
  | notify (t : TenantId) (alsoAck : Bool)
  | ack (t : TenantId)
  | ignoredRegisterWrite (offset : Nat) (value : BitVec 64)
  -- feeds, R55, R56
  | senseLineRise (f : FeedId)
  | senseLineFall (f : FeedId)
  | qualifyDeadline (f : FeedId)
  -- stage events, R97
  | pgRise (r : RailId)
  | pgFall (r : RailId)
  | lowReached (r : RailId)
  | stageFault (r : RailId) (kind : StageFault)
  -- deadlines
  | rampDeadline (r : RailId)
  | slewDeadline (r : RailId) (pgHigh : Bool)
  | dischargeDeadline (r : RailId)
  | stepDelayEnd (h : Handle)
  | backoffDeadline (h : Handle)
  | stableDeadline (r : RailId)
  | lapse (h : Handle)
  | waitDeadline (h : Handle)
  | offerExpiry (r : RailId)
  | recheckDeadline (t : TenantId)
  -- ring machinery, chapter 8
  | descriptorReadEnd (who : DescriptorReader) (data : Option (List Byte))
  | intakeGrant
  | headReadEnd (t : TenantId) (data : Option (List Byte))
  | fillByteWriteEnd (t : TenantId) (result : BusEnd)
  | writerStart (t : TenantId)
  | tailReadEnd (t : TenantId) (fill : Option Byte)
  | recordWriteEnd (t : TenantId) (result : BusEnd)
  | recheckReadEnd (t : TenantId) (fill : Option Byte)
  | reportWriteEnd (t : TenantId) (result : BusEnd)
  deriving DecidableEq, Repr

end Sys2Proof
end

