-- ==== Sys2Proof/Decode.lean ====
section
/-! DEFINITION. From words to happenings. spec/opcode_table.json gives no row any bits, so no table word spells a happening. A
write to the register window is decoded by R198 and R199; the 64-byte submission records are decoded in Machine/Operands.lean,
since their fields are operands of commands already named by the record's kind byte. -/

namespace Sys2Proof

/-- The happening that a word spells by the table's bits. The table gives no row any bits: none. -/
def decodeTableWord (_nbits _w : Nat) : Option Instr := none

/-- The width of a register access (R199). -/
inductive AccessWidth where
  | w32
  | w64
  deriving DecidableEq, Repr

/-- The access width in bytes. -/
def AccessWidth.bytes : AccessWidth → Nat
  | .w32 => 4
  | .w64 => 8

/-- A write of an action code to CONTROL's lower half (R183, R199, R200). -/
def decodeControl (code : Byte) : Instr :=
  match code.toNat with
  | 1 => .start
  | 2 => .emergencyStop
  | 3 => .softReset
  | 4 => .adminReopen
  | _ => .unknownAction code

/-- A write to the lower half of tenant `t`'s TENANT_SIGNAL (R175, R198): NOTIFY is bit 0, ACK is bit 1; with neither it has no
effect. -/
def decodeSignal (t : TenantId) (offset : Nat) (value : BitVec 64) : Instr :=
  match value.getLsbD 0, value.getLsbD 1 with
  | true, a => .notify t a
  | false, true => .ack t
  | false, false => .ignoredRegisterWrite offset value

/-- The tenant whose TENANT_SIGNAL stands at offset 0 of this page (R198). -/
def signalTenant (offset : Nat) : Option TenantId :=
  if offset = 0x1000 then some 0
  else if offset = 0x2000 then some 1
  else if offset = 0x3000 then some 2
  else if offset = 0x4000 then some 3
  else none

/-- The happening that a register write is (R198, R199). `none`: the access is outside the window or not aligned to its width,
so it is no register access (log entry 20). -/
def decodeRegisterWrite (offset : Nat) (width : AccessWidth) (value : BitVec 64) : Option Instr :=
  if 0x5000 ≤ offset ∨ offset % width.bytes ≠ 0 then none
  else if offset = 0x010 then some (decodeControl (value.extractLsb' 0 8))
  else if offset = 0x018 then
    match width with
    | .w64 => some (.descriptorBaseWrite (.whole value))
    | .w32 => some (.descriptorBaseWrite (.lower (value.extractLsb' 0 32)))
  else if offset = 0x01C then some (.descriptorBaseWrite (.upper (value.extractLsb' 0 32)))
  else
    match signalTenant offset with
    | some t => some (decodeSignal t offset value)
    | none => some (.ignoredRegisterWrite offset value)

end Sys2Proof
end

