-- ==== Sys2Proof/Config.lean ====
section
/-! DEFINITION. What the spec leaves open, as constants with no body: nothing can be proved of their values. -/

namespace Sys2Proof

/-- FREE VALUE (log entry 8). Where one happening reaches several leases or several offers and the spec gives no order,
`takenFirst n a b` says whether, at open point `n`, number `a` is taken before number `b`. -/
opaque Config.takenFirst : Nat → Nat → Nat → Bool

/-- FREE VALUE (log entry 9). Whether, at open point `n`, the lapse of R11 is taken before the shed pass of R69 where one stop
completion calls for both and the lease outlives the pass. -/
opaque Config.lapseBeforeShed : Nat → Bool

end Sys2Proof
end

