-- ==== Sys2Proof/Machine/State.lean ====
section
/-! DEFINITION. The state of the PL-1216 as plain data: what each block holds, and the power-on values. Optional parts that the
spec ties to a state are carried by that state's constructor. -/

namespace Sys2Proof.Machine

/-! ### Leases (R2 to R9) -/

/-- Where a start sequence stands (R6, R105, R106). -/
inductive StartProgress where
  /-- The named member is RISING. -/
  | rising (member : Nat)
  /-- The named member's step delay runs to the deadline. -/
  | delay (member : Nat) (deadline : Nat)
  deriving DecidableEq, Repr

/-- The new values of a member that a pending adjustment changes (R6, R51). -/
structure MemberChange where
  member  : Nat
  tier    : Nat
  voltage : Nat
  current : Nat
  charge  : Nat
  deriving DecidableEq, Repr

/-- The pending adjustment of an ADJUSTING lease, with the set of members still slewing (R6, R15, R109). -/
structure Adjustment where
  changes   : List MemberChange
  newCharge : Nat
  slewing   : List Nat
  deriving DecidableEq, Repr

/-- Why a lease stops (R9). -/
inductive StopCause where
  | released | revoked | lapsed | shed | fault | tenantClosed | serviceStopped | emergency
  deriving DecidableEq, Repr

/-- Why a lease ended: the nine end reasons (R6, R12, R200). -/
inductive EndReason where
  | released | revoked | lapsed | shed | waitExpired | faultLockout | tenantClosed | serviceStopped | emergency
  deriving DecidableEq, Repr

/-- The fault kinds (R120). -/
inductive FaultKind where
  | overcurrent | overtemperature | undervoltage | rampTimeout | slewTimeout | dischargeTimeout
  deriving DecidableEq, Repr

/-- The mode of a stop (R9). -/
inductive StopMode where
  | sequenced | unsequenced
  deriving DecidableEq, Repr

/-- The stop record of a STOPPING lease (R6, R9) and the member in turn of a sequenced stop (R112). -/
structure StopRecord where
  cause       : StopCause
  mode        : StopMode
  faulted     : List RailId
  firstFault  : Option FaultKind
  suspendMark : Bool
  inTurn      : Option Nat
  deriving DecidableEq, Repr

/-- The eight lease states, each with the optional parts that are present in it (R6, R7). -/
inductive LeaseState where
  | waiting
  | starting (progress : StartProgress)
  | active
  | adjusting (pending : Adjustment)
  | retryWait (backoffDeadline : Nat)
  | stopping (stop : StopRecord)
  | suspended
  | ended (reason : EndReason)
  deriving DecidableEq, Repr

/-- One member of a lease (R5). `auto` is the selection mode. -/
structure Member where
  rail      : RailId
  tier      : Nat
  auto      : Bool
  voltage   : Nat
  current   : Nat
  stepDelay : Nat
  charge    : Nat
  short     : Bool
  deriving DecidableEq, Repr

/-- A term: length in s, deadline in ms (R19). -/
structure Term where
  length   : Nat
  deadline : Nat
  deriving DecidableEq, Repr

/-- A lease record (R2, R4 to R6). Its handle is its slot's number and generation. -/
structure Lease where
  state   : LeaseState
  tenant  : TenantId
  cls     : Nat
  resume  : Bool
  short   : Bool
  members : List Member
  charge  : Nat
  term    : Option Term
  count   : BitVec 8
  deriving DecidableEq, Repr

/-- A lease slot (R1): its generation, and the record it holds, if any. -/
structure Slot where
  gen   : BitVec 12
  lease : Option Lease
  deriving DecidableEq, Repr

/-! ### Tiers (R29) -/

inductive TierKind where
  | fixed | ranged | capped
  deriving DecidableEq, Repr

/-- One tier of a rail's list (R29). `cap` has a meaning for CAPPED tiers alone and is 0 for the others. -/
structure Tier where
  kind : TierKind
  vmin : Nat
  vmax : Nat
  imax : Nat
  cap  : Nat
  deriving DecidableEq, Repr

/-! ### Budget (R54, R58) -/

inductive FeedState where
  | absent
  | qualifying (deadline : Nat)
  | present
  deriving DecidableEq, Repr

structure Feed where
  capacity : Nat
  qualify  : Nat
  state    : FeedState
  deriving DecidableEq, Repr

/-- A tenant's quota, maximum class and charged total (R58). -/
structure Account where
  quota    : Nat
  maxClass : Nat
  charged  : Nat
  deriving DecidableEq, Repr

/-! ### Deferred queue (R76) -/

/-- A CLAIM entry has a wait deadline and a pass count; a RESTORE entry has neither (its pass count stays 0). -/
inductive EntryKind where
  | claim (waitDeadline : Nat) (passCount : Nat)
  | restore
  deriving DecidableEq, Repr

structure QueueEntry where
  handle : Handle
  kind   : EntryKind
  deriving DecidableEq, Repr

/-! ### Rails (R93, R96, R98, R121, R137) -/

structure RailConfig where
  configured     : Bool
  floor          : Nat
  ceiling        : Nat
  currentCeiling : Nat
  rampRate       : Nat
  allowance      : Nat
  discharge      : Nat
  retryLimit     : Nat
  backoffBase    : Nat
  deriving DecidableEq, Repr

/-- A rail's state with its deadline (R98): the ramp deadline in RISING, the slew deadline in SLEWING, the discharge deadline in
FALLING. -/
inductive RailState where
  | off
  | rising (deadline : Nat)
  | on
  | slewing (deadline : Nat)
  | falling (deadline : Nat)
  | locked
  deriving DecidableEq, Repr

/-- The set voltage driven on a stage port (R96): held, or moved from one voltage to another at a rate (mV per ms) from a time. -/
inductive Drive where
  | held (voltage : Nat)
  | moving (source target rate start : Nat)
  deriving DecidableEq, Repr

/-- The live state of a rail (R98). `lease` is the handle of the live lease it is a member of. -/
structure Rail where
  state        : RailState
  drive        : Drive
  currentLimit : Nat
  lease        : Option Handle
  deriving DecidableEq, Repr

/-- The fault record of a rail (R121). -/
structure FaultRecord where
  count  : Nat
  last   : Option FaultKind
  stable : Option Nat
  deriving DecidableEq, Repr

/-- A pending offer (R137, R141). -/
structure Offer where
  offerer  : TenantId
  target   : TenantId
  deadline : Nat
  deriving DecidableEq, Repr

/-- The ownership record of a rail (R137); `none` is the owner NONE. -/
structure Ownership where
  owner : Option TenantId
  offer : Option Offer
  deriving DecidableEq, Repr

/-! ### Ring interface unit (R153 to R175) -/

/-- The states of a tenant (R153, R154). -/
inductive TenantState where
  | closed | isOpen | closing | broken
  deriving DecidableEq, Repr

/-- A descriptor copy (R153, R155). -/
structure Descriptor where
  subBase   : BitVec 64
  compBase  : BitVec 64
  subSize   : Nat
  compSize  : Nat
  interrupt : Bool
  deriving DecidableEq, Repr

/-- Completion statuses (R200). -/
inductive Status where
  | ok | granted | deferred
  | badKind | badValue | badMembers | badDescriptor | notAdmin | notServing | notOwner | noSuchLease
  | railDisabled | railInUse | railLocked | railBusy | notLocked | tagInUse | noLeaseSlot | queueFull
  | noHeadroom | exceedsCapacity | noSuitableTier | priority | leaseBusy | quota | quotaInUse | budgetInUse
  | inBundle | noOffer | offerPending | tenantState | adminTenant | busError
  deriving DecidableEq, Repr

/-- The detail of a completion (R169, R200). -/
inductive Detail where
  | none
  | index (n : Nat)
  | alreadyStopping
  | noChange
  deriving DecidableEq, Repr

/-- A completion entry's contents (R169), with the context it frees when it has been written (R172). -/
structure Completion where
  ctx    : CtxId
  tag    : BitVec 16
  kind   : Byte
  status : Status
  detail : Detail
  handle : Option Handle
  charge : Nat
  deriving DecidableEq, Repr

/-- The subject of a notice marker (R170). -/
inductive Subject where
  | lease (h : Handle)
  | rail (r : RailId)
  | budget
  deriving DecidableEq, Repr

/-- The latest reason of a marker: lease reasons (R17), rail reasons (R152), budget reasons (R74). -/
inductive Reason where
  | starting | active | adjusting | retryWait | stopping | suspended | ended | adjusted | transferred
  | offered | offerWithdrawn | offerExpired | accepted | assigned | locked | unlocked
  | feedPresent | feedLost | reconfigured
  deriving DecidableEq, Repr

/-- An entry of an outbound queue (R170). -/
inductive OutEntry where
  | completion (c : Completion)
  | marker (subject : Subject) (reason : Reason)
  deriving DecidableEq, Repr

/-- What becomes of a bus access's result when it ends. `live`: its effect is taken. `stale`: the access was on the bus when its
tenant became BROKEN, so a good result is ignored and an error still has its effect (R162). `dropped`: a close lets it run to
its end and ignores it (R158, R172). -/
inductive Fate where
  | live | stale | dropped
  deriving DecidableEq, Repr

/-- The bus access that a tenant's writer has in progress (R172, R173). A record write carries the context of a completion
entry, and none for a notice. -/
inductive WriterAccess where
  | tailRead (addr : BitVec 64) (fate : Fate)
  | recheckRead (addr : BitVec 64) (fate : Fate)
  | recordWrite (addr : BitVec 64) (record : List Byte) (ctx : Option CtxId) (fate : Fate)
  deriving DecidableEq, Repr

/-- A tenant context (R153). `scanPending`, `underWay`: scan-pending and command under way; `recheck`: the recheck deadline. -/
structure Tenant where
  state       : TenantState
  desc        : Option Descriptor
  head        : Nat
  tail        : Nat
  scanPending : Bool
  underWay    : Bool
  inFlight    : Nat
  outbound    : List OutEntry
  intPending  : Bool
  stalled     : Bool
  recheck     : Option Nat
  writer      : Option WriterAccess
  deriving DecidableEq, Repr

/-- The stage of a held command context (R163). -/
inductive Stage where
  /-- Intake: the head slot is being read; `notified` is the mark of R160. -/
  | headRead (addr : BitVec 64) (notified : Bool) (fate : Fate)
  /-- Intake: 0 is being written to the head slot's fill byte. -/
  | fillWrite (addr : BitVec 64) (fate : Fate)
  /-- Taken, gated and passed to its block, not yet carried out. -/
  | taken
  /-- A query whose report is being written (R168). -/
  | reporting (addr : BitVec 64) (report : List Byte) (fate : Fate)
  /-- An OPEN_TENANT whose descriptor read runs (R157). -/
  | openRead (tenant : TenantId) (addr : BitVec 64)
  /-- A CLOSE_TENANT whose teardown runs (R158). -/
  | tearing (tenant : TenantId)
  /-- A STOP_SERVICE that waits for the drain's end (R188). -/
  | draining
  /-- Finished: its completion stands in the outbound queue or is being written. -/
  | finished
  deriving DecidableEq, Repr

/-- A held command context (R163, R165): its tenant, the record read (empty during the head read), the tag it holds, its
stage. -/
structure Context where
  tenant : TenantId
  record : List Byte
  tag    : Option (BitVec 16)
  stage  : Stage
  deriving DecidableEq, Repr

/-! ### Service controller (R177) -/

inductive DrainReason where
  | serviceStopped | emergency
  deriving DecidableEq, Repr

/-- The service state; the drain record is present in DRAINING alone (R177). -/
inductive ServiceState where
  | idle
  | configuring
  | serving
  | draining (reason : DrainReason) (waiting : Bool)
  deriving DecidableEq, Repr

inductive LastAction where
  | none | start | emergencyStop | softReset | adminReopen | unknown
  deriving DecidableEq, Repr

inductive ActionOutcome where
  | none | pending | done | ignored | failed
  deriving DecidableEq, Repr

inductive StartError where
  | none | badDescriptor | busError
  deriving DecidableEq, Repr

/-- A control read: the action that began it and the address read (R177, R184, R185). -/
inductive ControlRead where
  | start (addr : BitVec 64)
  | adminReopen (addr : BitVec 64)
  deriving DecidableEq, Repr

/-! ### The whole state -/

/-- Why the block stops with a fault: never. Every row of the table has an effect in every state (R191 to R199), so this type has
no constructor. -/
inductive Fault where
  deriving DecidableEq, Repr

/-- Why the model gives a row no meaning. -/
inductive Refusal where
  /-- Raised by an arm of `exec` whose row has no meaning yet; safe (the model stops). No arm uses it. -/
  | notModelled (mnemonic : String)
  deriving DecidableEq, Repr

/-- The state of the part. `now`, `pending` and `choices` are the model's own: the time in ms, the happenings that wait, and the
number of open points met so far (log entries 1, 2, 8, 9). -/
structure State where
  now            : Nat
  pending        : List Instr
  choices        : Nat
  slots          : Vector Slot 16
  tiers          : Vector (List Tier) 12
  feeds          : Vector Feed 3
  margin         : Nat
  accounts       : Vector Account 4
  chargedTotal   : Nat
  committedTotal : Nat
  grantOrder     : List Handle
  queue          : List QueueEntry
  passLimit      : Nat
  defaultWait    : Nat
  railConfig     : Vector RailConfig 12
  rails          : Vector Rail 12
  faults         : Vector FaultRecord 12
  ownership      : Vector Ownership 12
  tenants        : Vector Tenant 4
  pool           : Vector (Option Context) 24
  lastGranted    : TenantId
  service        : ServiceState
  controlRead    : Option ControlRead
  descriptorBase : BitVec 64
  lastAction     : LastAction
  outcome        : ActionOutcome
  startError     : StartError
  deriving DecidableEq, Repr

/-- A feed at power-on whose sense line is low (R54). -/
def Feed.powerOn : Feed := { capacity := 0, qualify := 100, state := .absent }

/-- A rail's configuration at power-on (R93). -/
def RailConfig.powerOn : RailConfig :=
  { configured := false, floor := 500, ceiling := 500, currentCeiling := 1, rampRate := 1, allowance := 1000, discharge := 2000,
    retryLimit := 0, backoffBase := 10 }

/-- A rail's live state at power-on (R98). -/
def Rail.powerOn : Rail := { state := .off, drive := .held 0, currentLimit := 0, lease := none }

/-- A tenant context at power-on and after a soft reset (R153). -/
def Tenant.powerOn : Tenant :=
  { state := .closed, desc := none, head := 0, tail := 0, scanPending := false, underWay := false, inFlight := 0, outbound := [],
    intPending := false, stalled := false, recheck := none, writer := none }

/-- The part after power-on (R191 and the rules it names), with every sense line low (log entry 7). -/
def State.reset : State :=
  { now := 0, pending := [], choices := 0
    slots := Vector.replicate 16 { gen := 1, lease := none }
    tiers := Vector.replicate 12 []
    feeds := Vector.replicate 3 Feed.powerOn
    margin := 0
    accounts := Vector.replicate 4 { quota := 0, maxClass := 0, charged := 0 }
    chargedTotal := 0, committedTotal := 0, grantOrder := []
    queue := [], passLimit := 4, defaultWait := 30
    railConfig := Vector.replicate 12 RailConfig.powerOn
    rails := Vector.replicate 12 Rail.powerOn
    faults := Vector.replicate 12 { count := 0, last := none, stable := none }
    ownership := Vector.replicate 12 { owner := none, offer := none }
    tenants := Vector.replicate 4 Tenant.powerOn
    pool := Vector.replicate 24 none
    lastGranted := 3
    service := .idle, controlRead := none, descriptorBase := 0
    lastAction := .none, outcome := .none, startError := .none }

end Sys2Proof.Machine
end

