-- ==== Sys2Proof/Machine/Codes.lean ====
section
/-! DEFINITION. The numeric values of names (R200) and the byte-order helpers of the records (R193, 00_scope.md 1.6). -/

namespace Sys2Proof.Machine

/-! ### Little-endian bytes -/

/-- The `n` bytes of a value, least significant first. -/
def le : Nat → Nat → List Byte
  | 0, _ => []
  | n + 1, v => BitVec.ofNat 8 v :: le n (v / 256)

/-- `n` reserved bytes, written as 0 (R193). -/
def zeros (n : Nat) : List Byte := List.replicate n 0

/-- The byte at an offset of a record. -/
def byteAt (r : List Byte) (i : Nat) : Byte := r.getD i 0

/-- The unsigned little-endian number of `n` bytes at an offset of a record. -/
def uint (r : List Byte) (off : Nat) : Nat → Nat
  | 0 => 0
  | n + 1 => (byteAt r off).toNat + 256 * uint r (off + 1) n

/-- Bit `k` of a byte that holds this flag and nothing else. -/
def flagBit (b : Bool) (k : Nat) : Nat := if b then 2 ^ k else 0

/-! ### Handles (R193) -/

/-- A handle as the 16-bit word of records: slot in bits 0 to 3, generation in bits 4 to 15. -/
def handleWord (h : Handle) : Nat := h.slot.val + 16 * h.gen.toNat

/-- The handle a 16-bit word names. -/
def handleOfWord (w : Nat) : Handle := { slot := Fin.ofNat 16 w, gen := BitVec.ofNat 12 (w / 16) }

/-- A record's handle field: 0 means no lease. -/
def handleField : Option Handle → Nat
  | none => 0
  | some h => handleWord h

/-! ### Names (R200) -/

def Status.code : Status → Nat
  | .ok => 0x00 | .granted => 0x01 | .deferred => 0x02
  | .badKind => 0x10 | .badValue => 0x11 | .badMembers => 0x12 | .badDescriptor => 0x13 | .notAdmin => 0x14
  | .notServing => 0x15 | .notOwner => 0x16 | .noSuchLease => 0x17 | .railDisabled => 0x18 | .railInUse => 0x19
  | .railLocked => 0x1A | .railBusy => 0x1B | .notLocked => 0x1C | .tagInUse => 0x1D | .noLeaseSlot => 0x1E
  | .queueFull => 0x1F | .noHeadroom => 0x20 | .exceedsCapacity => 0x21 | .noSuitableTier => 0x22 | .priority => 0x23
  | .leaseBusy => 0x24 | .quota => 0x25 | .quotaInUse => 0x26 | .budgetInUse => 0x27 | .inBundle => 0x28
  | .noOffer => 0x29 | .offerPending => 0x2A | .tenantState => 0x2B | .adminTenant => 0x2C | .busError => 0x2D

def Detail.code : Detail → Nat
  | .index n => n
  | .alreadyStopping => 0xF0
  | .noChange => 0xF1
  | .none => 0xFF

def EndReason.code : EndReason → Nat
  | .released => 1 | .revoked => 2 | .lapsed => 3 | .shed => 4 | .waitExpired => 5 | .faultLockout => 6
  | .tenantClosed => 7 | .serviceStopped => 8 | .emergency => 9

def StopCause.code : StopCause → Nat
  | .released => 1 | .revoked => 2 | .lapsed => 3 | .shed => 4
  | .tenantClosed => 7 | .serviceStopped => 8 | .emergency => 9 | .fault => 10

def LeaseState.code : LeaseState → Nat
  | .waiting => 1 | .starting _ => 2 | .active => 3 | .adjusting _ => 4 | .retryWait _ => 5 | .stopping _ => 6
  | .suspended => 7 | .ended _ => 8

/-- The end reason byte: 0 unless the state is ENDED (R196). -/
def LeaseState.endCode : LeaseState → Nat
  | .ended r => r.code
  | _ => 0

def Reason.code : Reason → Nat
  | .starting => 2 | .active => 3 | .adjusting => 4 | .retryWait => 5 | .stopping => 6 | .suspended => 7 | .ended => 8
  | .adjusted => 0x10 | .transferred => 0x11
  | .offered => 0x20 | .offerWithdrawn => 0x21 | .offerExpired => 0x22 | .accepted => 0x23 | .assigned => 0x24
  | .locked => 0x25 | .unlocked => 0x26
  | .feedPresent => 0x30 | .feedLost => 0x31 | .reconfigured => 0x32

def RailState.code : RailState → Nat
  | .off => 0 | .rising _ => 1 | .on => 2 | .slewing _ => 3 | .falling _ => 4 | .locked => 5

def FaultKind.code : FaultKind → Nat
  | .overcurrent => 1 | .overtemperature => 2 | .undervoltage => 3 | .rampTimeout => 4 | .slewTimeout => 5
  | .dischargeTimeout => 6

/-- The fault-kind byte: 0 is NONE. -/
def faultField : Option FaultKind → Nat
  | none => 0
  | some k => k.code

/-- The tier kind of a 2-bit field; 3 has no name (R194). -/
def tierKindOf : Nat → Option TierKind
  | 0 => some .fixed
  | 1 => some .ranged
  | 2 => some .capped
  | _ => none

def FeedState.code : FeedState → Nat
  | .absent => 0 | .qualifying _ => 1 | .present => 2

def TenantState.code : TenantState → Nat
  | .closed => 0 | .isOpen => 1 | .closing => 2 | .broken => 3

def ServiceState.code : ServiceState → Nat
  | .idle => 0 | .configuring => 1 | .serving => 2 | .draining _ _ => 3

/-- STATUS's drain reason: NONE outside DRAINING (R181, R198). -/
def ServiceState.drainCode : ServiceState → Nat
  | .draining .serviceStopped _ => 1
  | .draining .emergency _ => 2
  | _ => 0

def LastAction.code : LastAction → Nat
  | .none => 0 | .start => 1 | .emergencyStop => 2 | .softReset => 3 | .adminReopen => 4 | .unknown => 7

def ActionOutcome.code : ActionOutcome → Nat
  | .none => 0 | .pending => 1 | .done => 2 | .ignored => 3 | .failed => 4

def StartError.code : StartError → Nat
  | .none => 0 | .badDescriptor => 1 | .busError => 2

/-- A field that names a tenant that may be absent: 0xFF stands for NONE (R193). -/
def tenantField : Option TenantId → Nat
  | none => 0xFF
  | some t => t.val

end Sys2Proof.Machine
end

