-- ==== Sys2Proof/Machine/Operands.lean ====
section
/-! DEFINITION. The operands of ring commands: the 64-byte submission record read by the layout of its kind (R194, R195), and
written by the same layout. Field values are kept as the record holds them; a command's own checks judge them. -/

namespace Sys2Proof.Machine

/-! ### What a record can carry -/

/-- A member spec of a CLAIM or an ADJUST (R195). The byte at +1 chooses the layout. -/
inductive MemberSpec where
  | explicit (rail tier stepDelay voltage current : Nat)
  | auto (rail stepDelay preference low high minPower maxCurrent : Nat)
  deriving DecidableEq, Repr

/-- The rail a spec names. -/
def MemberSpec.rail : MemberSpec → Nat
  | .explicit rail _ _ _ _ => rail
  | .auto rail _ _ _ _ _ _ => rail

/-- A CLAIM's fields (02_tiers_and_claims.md 2.3). `specs` are those within the member count. -/
structure ClaimArgs where
  cls        : Nat
  resume     : Bool
  noWait     : Bool
  allowShort : Bool
  term       : Nat
  wait       : Nat
  count      : Nat
  specs      : List MemberSpec
  deriving DecidableEq, Repr

/-- A tier entry of SET_TIERS; `kind` is the 2-bit field. -/
structure TierEntry where
  vmin : Nat
  vmax : Nat
  imax : Nat
  cap  : Nat
  kind : Nat
  deriving DecidableEq, Repr

/-- The fields of SET_RAIL (R94). -/
structure SetRailArgs where
  rail   : Nat
  config : RailConfig
  deriving DecidableEq, Repr

/-- A submission record's command (R195), its fields as the record holds them. -/
inductive Command where
  | claim (a : ClaimArgs)
  | adjust (handle count : Nat) (specs : List MemberSpec)
  | release (handle : Nat)
  | renew (handle term : Nat)
  | revoke (handle : Nat)
  | queryLease (handle buffer : Nat)
  | queryRail (rail buffer : Nat)
  | queryBudget (subject buffer : Nat)
  | queryTenant (subject buffer : Nat)
  | setTiers (rail count : Nat) (tiers : List TierEntry)
  | setRail (a : SetRailArgs)
  | setFeed (feed capacity qualify : Nat)
  | setMargin (margin : Nat)
  | setQuota (tenant maxClass quota : Nat)
  | setQueuePolicy (passLimit defaultWait : Nat)
  | assignRail (rail owner : Nat)
  | clearLockout (rail : Nat)
  | offerRail (rail target lifetime : Nat)
  | acceptRail (rail : Nat)
  | withdrawOffer (rail : Nat)
  | openTenant (tenant : Nat)
  | closeTenant (tenant : Nat)
  | startService
  | stopService
  deriving DecidableEq, Repr

/-! ### Reading a record -/

/-- The member spec that starts at an offset (R195). -/
def readSpec (r : List Byte) (off : Nat) : MemberSpec :=
  if uint r (off + 1) 1 = 0xFF then
    .auto (uint r off 1) (uint r (off + 2) 1) (uint r (off + 3) 1) (uint r (off + 4) 2) (uint r (off + 6) 2) (uint r (off + 8) 2)
      (uint r (off + 10) 2)
  else
    .explicit (uint r off 1) (uint r (off + 1) 1) (uint r (off + 2) 1) (uint r (off + 4) 2) (uint r (off + 6) 2)

/-- The specs within the member count; those beyond it are ignored, and the record has room for four (R194, R195). -/
def readSpecs (r : List Byte) (count : Nat) : List MemberSpec :=
  ([16, 28, 40, 52].take count).map (readSpec r)

/-- The tier entry that starts at an offset (R195): the 3-byte word at +6 holds the cap in bits 0 to 20 and the kind in bits 22
and 23. -/
def readTier (r : List Byte) (off : Nat) : TierEntry :=
  { vmin := uint r off 2, vmax := uint r (off + 2) 2, imax := uint r (off + 4) 2
    cap := uint r (off + 6) 3 % 2 ^ 21, kind := uint r (off + 6) 3 / 2 ^ 22 }

/-- The tier entries within the tier count (R194, R195). -/
def readTiers (r : List Byte) (count : Nat) : List TierEntry :=
  ([10, 19, 28, 37, 46, 55].take count).map (readTier r)

/-- The configuration a SET_RAIL record carries (R195). -/
def readConfig (r : List Byte) : RailConfig :=
  { configured := (byteAt r 9).getLsbD 0, floor := uint r 10 2, ceiling := uint r 12 2, currentCeiling := uint r 14 2
    rampRate := uint r 16 2, allowance := uint r 18 2, discharge := uint r 20 2, retryLimit := uint r 22 1
    backoffBase := uint r 24 2 }

/-- The tag of a record (R195). -/
def recordTag (r : List Byte) : BitVec 16 := BitVec.ofNat 16 (uint r 2 2)

/-- The kind byte of a record (R195). -/
def recordKind (r : List Byte) : Byte := byteAt r 1

/-- The command of a record by its kind byte (R195, R200); `none` where the kind has no name (BAD_KIND, R194). -/
def Command.read (r : List Byte) : Option Command :=
  match (recordKind r).toNat with
  | 0x01 =>
    some (.claim
      { cls := uint r 8 1, resume := (byteAt r 9).getLsbD 0, noWait := (byteAt r 9).getLsbD 1
        allowShort := (byteAt r 9).getLsbD 2, term := uint r 10 2, wait := uint r 12 2, count := uint r 14 1
        specs := readSpecs r (uint r 14 1) })
  | 0x02 => some (.adjust (uint r 8 2) (uint r 10 1) (readSpecs r (uint r 10 1)))
  | 0x03 => some (.release (uint r 8 2))
  | 0x04 => some (.renew (uint r 8 2) (uint r 10 2))
  | 0x05 => some (.revoke (uint r 8 2))
  | 0x10 => some (.queryLease (uint r 8 2) (uint r 16 8))
  | 0x11 => some (.queryRail (uint r 8 1) (uint r 16 8))
  | 0x12 => some (.queryBudget (uint r 8 1) (uint r 16 8))
  | 0x13 => some (.queryTenant (uint r 8 1) (uint r 16 8))
  | 0x20 => some (.setTiers (uint r 8 1) (uint r 9 1) (readTiers r (uint r 9 1)))
  | 0x21 => some (.setRail { rail := uint r 8 1, config := readConfig r })
  | 0x22 => some (.setFeed (uint r 8 1) (uint r 12 4) (uint r 16 2))
  | 0x23 => some (.setMargin (uint r 12 4))
  | 0x24 => some (.setQuota (uint r 8 1) (uint r 9 1) (uint r 12 4))
  | 0x25 => some (.setQueuePolicy (uint r 8 1) (uint r 10 2))
  | 0x26 => some (.assignRail (uint r 8 1) (uint r 9 1))
  | 0x27 => some (.clearLockout (uint r 8 1))
  | 0x30 => some (.offerRail (uint r 8 1) (uint r 9 1) (uint r 10 2))
  | 0x31 => some (.acceptRail (uint r 8 1))
  | 0x32 => some (.withdrawOffer (uint r 8 1))
  | 0x40 => some (.openTenant (uint r 8 1))
  | 0x41 => some (.closeTenant (uint r 8 1))
  | 0x50 => some .startService
  | 0x51 => some .stopService
  | _ => none

/-! ### Writing a record, by the same layout -/

/-- The 12 bytes of a member spec (R195). -/
def MemberSpec.write : MemberSpec → List Byte
  | .explicit rail tier stepDelay voltage current =>
    le 1 rail ++ le 1 tier ++ le 1 stepDelay ++ zeros 1 ++ le 2 voltage ++ le 2 current ++ zeros 4
  | .auto rail stepDelay preference low high minPower maxCurrent =>
    le 1 rail ++ le 1 0xFF ++ le 1 stepDelay ++ le 1 preference ++ le 2 low ++ le 2 high ++ le 2 minPower ++ le 2 maxCurrent

/-- The 9 bytes of a tier entry (R195). -/
def TierEntry.write (t : TierEntry) : List Byte :=
  le 2 t.vmin ++ le 2 t.vmax ++ le 2 t.imax ++ le 3 (t.cap + 2 ^ 22 * t.kind)

/-- The kind byte of a command (R200). -/
def Command.kind : Command → Nat
  | .claim _ => 0x01 | .adjust _ _ _ => 0x02 | .release _ => 0x03 | .renew _ _ => 0x04 | .revoke _ => 0x05
  | .queryLease _ _ => 0x10 | .queryRail _ _ => 0x11 | .queryBudget _ _ => 0x12 | .queryTenant _ _ => 0x13
  | .setTiers _ _ _ => 0x20 | .setRail _ => 0x21 | .setFeed _ _ _ => 0x22 | .setMargin _ => 0x23 | .setQuota _ _ _ => 0x24
  | .setQueuePolicy _ _ => 0x25 | .assignRail _ _ => 0x26 | .clearLockout _ => 0x27
  | .offerRail _ _ _ => 0x30 | .acceptRail _ => 0x31 | .withdrawOffer _ => 0x32
  | .openTenant _ => 0x40 | .closeTenant _ => 0x41 | .startService => 0x50 | .stopService => 0x51

/-- A query's body: a field at 8 and the buffer address at 16 (R195). -/
def queryBody (field width buffer : Nat) : List Byte := le width field ++ zeros (8 - width) ++ le 8 buffer

/-- A command's body, from offset 8 (R195). -/
def Command.body : Command → List Byte
  | .claim a =>
    le 1 a.cls ++ le 1 (flagBit a.resume 0 + flagBit a.noWait 1 + flagBit a.allowShort 2) ++ le 2 a.term ++ le 2 a.wait ++
      le 1 a.count ++ zeros 1 ++ a.specs.flatMap MemberSpec.write
  | .adjust h count specs => le 2 h ++ le 1 count ++ zeros 5 ++ specs.flatMap MemberSpec.write
  | .release h | .revoke h => le 2 h
  | .renew h term => le 2 h ++ le 2 term
  | .queryLease h buffer => queryBody h 2 buffer
  | .queryRail n buffer | .queryBudget n buffer | .queryTenant n buffer => queryBody n 1 buffer
  | .setTiers rail count tiers => le 1 rail ++ le 1 count ++ tiers.flatMap TierEntry.write
  | .setRail a =>
    le 1 a.rail ++ le 1 (flagBit a.config.configured 0) ++ le 2 a.config.floor ++ le 2 a.config.ceiling ++
      le 2 a.config.currentCeiling ++ le 2 a.config.rampRate ++ le 2 a.config.allowance ++ le 2 a.config.discharge ++
      le 1 a.config.retryLimit ++ zeros 1 ++ le 2 a.config.backoffBase
  | .setFeed feed capacity qualify => le 1 feed ++ zeros 3 ++ le 4 capacity ++ le 2 qualify
  | .setMargin margin => zeros 4 ++ le 4 margin
  | .setQuota tenant maxClass quota => le 1 tenant ++ le 1 maxClass ++ zeros 2 ++ le 4 quota
  | .setQueuePolicy passLimit defaultWait => le 1 passLimit ++ zeros 1 ++ le 2 defaultWait
  | .assignRail rail owner => le 1 rail ++ le 1 owner
  | .offerRail rail target lifetime => le 1 rail ++ le 1 target ++ le 2 lifetime
  | .clearLockout n | .acceptRail n | .withdrawOffer n | .openTenant n | .closeTenant n => le 1 n
  | .startService | .stopService => []

/-- The 64-byte submission record of a command: fill byte 1, kind, tag, then the body padded with reserved bytes (R195). -/
def Command.write (tag : BitVec 16) (c : Command) : List Byte :=
  let front := le 1 1 ++ le 1 c.kind ++ le 2 tag.toNat ++ zeros 4 ++ c.body
  front ++ zeros (64 - front.length)

/-! ### Which field values a record can hold -/

/-- A spec's fields have the widths of its layout, and an explicit spec's tier index is below 0xFF (R195). -/
def MemberSpec.fits : MemberSpec → Bool
  | .explicit rail tier stepDelay voltage current =>
    decide (rail < 256 ∧ tier < 255 ∧ stepDelay < 256 ∧ voltage < 65536 ∧ current < 65536)
  | .auto rail stepDelay preference low high minPower maxCurrent =>
    decide (rail < 256 ∧ stepDelay < 256 ∧ preference < 256 ∧ low < 65536 ∧ high < 65536 ∧ minPower < 65536 ∧
      maxCurrent < 65536)

/-- A tier entry's fields have the widths of its layout (R195). -/
def TierEntry.fits (t : TierEntry) : Bool :=
  decide (t.vmin < 65536 ∧ t.vmax < 65536 ∧ t.imax < 65536 ∧ t.cap < 2 ^ 21 ∧ t.kind < 4)

/-- A command's fields have the widths of its layout, and it carries one spec or tier entry for each position within its
count (R195). -/
def Command.fits : Command → Bool
  | .claim a =>
    decide (a.cls < 256 ∧ a.term < 65536 ∧ a.wait < 65536 ∧ a.count < 256 ∧ a.specs.length = min a.count 4) &&
      a.specs.all MemberSpec.fits
  | .adjust h count specs =>
    decide (h < 65536 ∧ count < 256 ∧ specs.length = min count 4) && specs.all MemberSpec.fits
  | .release h | .revoke h => decide (h < 65536)
  | .renew h term => decide (h < 65536 ∧ term < 65536)
  | .queryLease h buffer => decide (h < 65536 ∧ buffer < 2 ^ 64)
  | .queryRail n buffer | .queryBudget n buffer | .queryTenant n buffer => decide (n < 256 ∧ buffer < 2 ^ 64)
  | .setTiers rail count tiers =>
    decide (rail < 256 ∧ count < 256 ∧ tiers.length = min count 6) && tiers.all TierEntry.fits
  | .setRail a =>
    decide (a.rail < 256 ∧ a.config.floor < 65536 ∧ a.config.ceiling < 65536 ∧ a.config.currentCeiling < 65536 ∧
      a.config.rampRate < 65536 ∧ a.config.allowance < 65536 ∧ a.config.discharge < 65536 ∧ a.config.retryLimit < 256 ∧
      a.config.backoffBase < 65536)
  | .setFeed feed capacity qualify => decide (feed < 256 ∧ capacity < 2 ^ 32 ∧ qualify < 65536)
  | .setMargin margin => decide (margin < 2 ^ 32)
  | .setQuota tenant maxClass quota => decide (tenant < 256 ∧ maxClass < 256 ∧ quota < 2 ^ 32)
  | .setQueuePolicy passLimit defaultWait => decide (passLimit < 256 ∧ defaultWait < 65536)
  | .assignRail rail owner => decide (rail < 256 ∧ owner < 256)
  | .offerRail rail target lifetime => decide (rail < 256 ∧ target < 256 ∧ lifetime < 65536)
  | .clearLockout n | .acceptRail n | .withdrawOffer n | .openTenant n | .closeTenant n => decide (n < 256)
  | .startService | .stopService => true

/-! ### Numbers that name a resource -/

/-- The resource a field names, if its number is one of the part's. -/
def numbered (n : Nat) (v : Nat) : Option (Fin n) := if h : v < n then some ⟨v, h⟩ else none

/-- The new owner a byte names: a tenant, 0xFF for NONE, or no owner at all (R193, R194). -/
def ownerOf (v : Nat) : Option (Option TenantId) :=
  if v = 0xFF then some none else (numbered 4 v).map some

/-- A descriptor read from memory (R198). -/
def readDescriptor (r : List Byte) : Descriptor :=
  { subBase := BitVec.ofNat 64 (uint r 0 8), compBase := BitVec.ofNat 64 (uint r 8 8), subSize := uint r 16 2
    compSize := uint r 18 2, interrupt := (byteAt r 20).getLsbD 1 }

/-- The descriptor's valid flag (R198). -/
def descriptorValid (r : List Byte) : Bool := (byteAt r 20).getLsbD 0

/-- The ring sizes a descriptor may give (R155). -/
def ringSizes : List Nat := [8, 16, 32, 64, 128, 256]

/-- The rings' byte ranges have a byte in common (R155). -/
def Descriptor.overlap (d : Descriptor) : Bool :=
  decide (d.subBase.toNat < d.compBase.toNat + 16 * d.compSize ∧ d.compBase.toNat < d.subBase.toNat + 64 * d.subSize)

/-- A descriptor read judged by R155: `none` where it is bad. -/
def judgeDescriptor (r : List Byte) : Option Descriptor :=
  let d := readDescriptor r
  if descriptorValid r ∧ d.subSize ∈ ringSizes ∧ d.compSize ∈ ringSizes ∧ d.subBase.toNat % 64 = 0 ∧
      d.compBase.toNat % 16 = 0 ∧ d.overlap = false
  then some d else none

end Sys2Proof.Machine
end

