-- ==== Sys2Proof/Machine/Ops.lean ====
section
/-! DEFINITION. The named reads and writes of State, and the working record of one happening. Every read and write of a record of
State goes through these. -/

namespace Sys2Proof.Machine

/-! ### Tables -/

/-- The entry of a table at a number. -/
def vget {α : Type} {n : Nat} (v : Vector α n) (i : Fin n) : α := v.get i

/-- A table with one entry replaced. -/
def vset {α : Type} {n : Nat} (v : Vector α n) (i : Fin n) (x : α) : Vector α n := v.set i.val x i.isLt

/-- A quotient rounded up (00_scope.md 1.6 "Units and ranges"). -/
def ceilDiv (a b : Nat) : Nat := (a + b - 1) / b

namespace State

/-! ### Reads -/

def slot (s : State) (i : SlotId) : Slot := vget s.slots i
def tierList (s : State) (r : RailId) : List Tier := vget s.tiers r
def feed (s : State) (f : FeedId) : Feed := vget s.feeds f
def account (s : State) (t : TenantId) : Account := vget s.accounts t
def config (s : State) (r : RailId) : RailConfig := vget s.railConfig r
def rail (s : State) (r : RailId) : Rail := vget s.rails r
def faultRecord (s : State) (r : RailId) : FaultRecord := vget s.faults r
def owned (s : State) (r : RailId) : Ownership := vget s.ownership r
def tenant (s : State) (t : TenantId) : Tenant := vget s.tenants t
def context (s : State) (c : CtxId) : Option Context := vget s.pool c

/-! ### Writes -/

def setSlot (s : State) (i : SlotId) (x : Slot) : State := { s with slots := vset s.slots i x }
def setTierList (s : State) (r : RailId) (x : List Tier) : State := { s with tiers := vset s.tiers r x }
def setFeedRecord (s : State) (f : FeedId) (x : Feed) : State := { s with feeds := vset s.feeds f x }
def setAccount (s : State) (t : TenantId) (x : Account) : State := { s with accounts := vset s.accounts t x }
def setConfig (s : State) (r : RailId) (x : RailConfig) : State := { s with railConfig := vset s.railConfig r x }
def setRail (s : State) (r : RailId) (x : Rail) : State := { s with rails := vset s.rails r x }
def setFaultRecord (s : State) (r : RailId) (x : FaultRecord) : State := { s with faults := vset s.faults r x }
def setOwned (s : State) (r : RailId) (x : Ownership) : State := { s with ownership := vset s.ownership r x }
def setTenant (s : State) (t : TenantId) (x : Tenant) : State := { s with tenants := vset s.tenants t x }
def setContext (s : State) (c : CtxId) (x : Option Context) : State := { s with pool := vset s.pool c x }

/-! ### Leases by slot and by handle -/

/-- The record a slot holds, live or ENDED. -/
def lease? (s : State) (i : SlotId) : Option Lease := (s.slot i).lease

/-- The handle of the lease a slot holds: the slot's number with its present generation (R2). -/
def handleOf (s : State) (i : SlotId) : Handle := { slot := i, gen := (s.slot i).gen }

/-- The record a handle resolves to (R3): the slot holds one and has the handle's generation. -/
def resolve (s : State) (h : Handle) : Option Lease :=
  if (s.slot h.slot).gen = h.gen then s.lease? h.slot else none

/-- Replaces the record a slot holds. -/
def setLease (s : State) (i : SlotId) (l : Lease) : State := s.setSlot i { s.slot i with lease := some l }

/-- The happening in which a deadline is reached (00_scope.md 1.6 "Time in this manual"): `u` where the clock has come to the
deadline; before it the happening does not happen, as after a RENEW that moved the deadline (R21, log entry 3). -/
def atDeadline (s : State) (deadline : Nat) (u : State) : State := if deadline ≤ s.now then u else s

end State

/-- A live lease: any state except ENDED (00_scope.md 1.5). -/
def Lease.live (l : Lease) : Bool :=
  match l.state with
  | .ended _ => false
  | _ => true

/-- The record a handle resolves to, if it is live (R3). -/
def State.liveLease (s : State) (h : Handle) : Option Lease :=
  match s.resolve h with
  | some l => if l.live then some l else none
  | none => none

/-- The sum of member charges (R33). -/
def chargeOf (members : List Member) : Nat := (members.map Member.charge).sum

/-- The lowest-numbered free slot (R2). -/
def State.freeSlot (s : State) : Option SlotId := (List.finRange 16).find? fun i => (s.lease? i).isNone

/-- Some live lease remains (R189). -/
def State.anyLive (s : State) : Bool :=
  (List.finRange 16).any fun i =>
    match s.lease? i with
    | some l => l.live
    | none => false

/-- The tenant has a live lease (R158). -/
def State.holdsLease (s : State) (t : TenantId) : Bool :=
  (List.finRange 16).any fun i =>
    match s.lease? i with
    | some l => l.live && l.tenant == t
    | none => false

/-! ### The working record of one happening -/

/-- One happening while it is carried out: the state so far; `rise`, whether it contains a budget rise (R64); `check`, whether a
drain or a teardown may end in it (R158, R189); `loose`, the slots that R18 may free at its end; the completions it adds, which
join the queues first (R169); and the markers it adds, in order (R17, R74, R152). -/
structure Happening where
  st      : State
  rise    : Bool
  check   : Bool
  loose   : List SlotId
  answers : List (TenantId × Completion)
  marks   : List (TenantId × Subject × Reason)

/-- The beginning of a happening. -/
def State.begin (s : State) : Happening :=
  { st := s, rise := false, check := false, loose := [], answers := [], marks := [] }

namespace Happening

/-- A step that changes the state alone. -/
def map (h : Happening) (f : State → State) : Happening := { h with st := f h.st }

/-- Asks for a notice marker (R17, R74, R152). -/
def mark (h : Happening) (t : TenantId) (subject : Subject) (reason : Reason) : Happening :=
  { h with marks := h.marks ++ [(t, subject, reason)] }

/-- Notes a budget rise (R64). -/
def risen (h : Happening) : Happening := { h with rise := true }

/-- Notes that a drain or teardown may end in this happening. -/
def checked (h : Happening) : Happening := { h with check := true }

/-- Notes a slot for R18. -/
def loosen (h : Happening) (i : SlotId) : Happening := { h with loose := h.loose ++ [i] }

end Happening

/-! ### Orders the spec leaves open -/

/-- Puts one item into a list, before the first item that open point `n` takes after it. -/
def freeInsert {α : Type} (n : Nat) (key : α → Nat) (x : α) : List α → List α
  | [] => [x]
  | y :: ys => if Config.takenFirst n (key x) (key y) then x :: y :: ys else y :: freeInsert n key x ys

/-- A list in the order that open point `n` gives it: any order can result (log entry 8). -/
def freeOrder {α : Type} (n : Nat) (key : α → Nat) : List α → List α
  | [] => []
  | x :: xs => freeInsert n key x (freeOrder n key xs)

/-- Counts one open point as met. -/
def State.chosen (s : State) : State := { s with choices := s.choices + 1 }

end Sys2Proof.Machine
end

