-- ==== Sys2Proof/Machine/RailOps.lean ====
section
/-! DEFINITION. The rail sequencer's operations on one rail (R96 to R103), the lock decision (R127), and the ways a rail reaches a
new state. -/

namespace Sys2Proof.Machine

/-- A rail is powered in RISING, ON and SLEWING (R98). -/
def Rail.powered (r : Rail) : Bool :=
  match r.state with
  | .rising _ | .on | .slewing _ => true
  | _ => false

/-- A rail is down in OFF and LOCKED (R98). -/
def Rail.down (r : Rail) : Bool :=
  match r.state with
  | .off | .locked => true
  | _ => false

/-- The stage's enable output: high in RISING, ON and SLEWING (R96). -/
def Rail.enable (r : Rail) : Bool := r.powered

/-- The deadline of a rail's state, if one runs (R98). -/
def Rail.deadline (r : Rail) : Option Nat :=
  match r.state with
  | .rising d | .slewing d | .falling d => some d
  | _ => none

/-- The set voltage driven at a time (R96): a ramp moves at its rate from its source until it reaches its target, then holds. -/
def Drive.at (d : Drive) (now : Nat) : Nat :=
  match d with
  | .held v => v
  | .moving source target rate start =>
    if source ≤ target then min target (source + rate * (now - start)) else max target (source - rate * (now - start))

/-- The voltage a rail is being taken to (R118). -/
def Drive.target : Drive → Nat
  | .held v => v
  | .moving _ target _ _ => target

/-- Entry to RISING, from OFF alone (R96, R100). -/
def State.enterRising (s : State) (r : RailId) (voltage current : Nat) : State :=
  match (s.rail r).state with
  | .off =>
    let cfg := s.config r
    s.setRail r
      { s.rail r with
        state := .rising (s.now + ceilDiv voltage cfg.rampRate + cfg.allowance)
        drive := .moving 0 voltage cfg.rampRate s.now
        currentLimit := current }
  | _ => s

/-- The time a rail must stay ON for its fault count to be cleared, ms (R129). -/
def stableTime : Nat := 2000

/-- Entry to ON, from RISING or SLEWING: the drive holds its target and the stable deadline starts (R96, R99, R129). -/
def State.enterOn (s : State) (r : RailId) : State :=
  let s1 := s.setRail r { s.rail r with state := .on, drive := .held (s.rail r).drive.target }
  s1.setFaultRecord r { s1.faultRecord r with stable := some (s.now + stableTime) }

/-- The difference of two voltages. -/
def gap (a b : Nat) : Nat := (a - b) + (b - a)

/-- Cancels a rail's stable deadline (R129). -/
def State.cancelStable (s : State) (r : RailId) : State :=
  s.setFaultRecord r { s.faultRecord r with stable := none }

/-- Entry to SLEWING from ON (R96, R101, R129): a rail that is not ON is left alone. -/
def State.enterSlewing (s : State) (r : RailId) (voltage : Nat) : State :=
  match (s.rail r).state with
  | .on =>
    let cfg := s.config r
    let old := (s.rail r).drive.target
    (s.setRail r
      { s.rail r with
        state := .slewing (s.now + ceilDiv (gap old voltage) cfg.rampRate + cfg.allowance)
        drive := .moving old voltage cfg.rampRate s.now }).cancelStable r
  | _ => s

/-- Writes a new current limit to a rail's port (R50, R96, R109). -/
def State.setCurrent (s : State) (r : RailId) (current : Nat) : State :=
  s.setRail r { s.rail r with currentLimit := current }

/-- Entry to FALLING, from RISING, ON or SLEWING (R96, R102, R129): enable low, outputs held at their last values, the discharge
deadline set. A rail that is not powered is left alone. -/
def State.enterFalling (s : State) (r : RailId) : State :=
  if (s.rail r).powered then
    (s.setRail r
      { s.rail r with
        state := .falling (s.now + (s.config r).discharge)
        drive := .held ((s.rail r).drive.at s.now) }).cancelStable r
  else s

/-- The bottom of a fall: OFF or LOCKED, with the outputs at 0 (R96, R102, R103). -/
def State.enterDown (s : State) (r : RailId) (locked : Bool) : State :=
  s.setRail r
    { s.rail r with state := if locked then .locked else .off, drive := .held 0, currentLimit := 0 }

/-- The lock decision (R127): the fault count is above the retry limit. -/
def State.locks (s : State) (r : RailId) : Bool := decide ((s.config r).retryLimit < (s.faultRecord r).count)

/-- The count of one fault (R122): at most 15; the last kind is set; the stable deadline is cancelled. -/
def State.countFault (s : State) (r : RailId) (kind : FaultKind) : State :=
  s.setFaultRecord r { count := min 15 ((s.faultRecord r).count + 1), last := some kind, stable := none }

/-- Sets a rail's lease handle (R98). -/
def State.setMembership (s : State) (r : RailId) (h : Option Handle) : State :=
  s.setRail r { s.rail r with lease := h }

/-- Every member's rail takes the lease's handle, or 0 (R98, R12). -/
def State.setMemberships (s : State) (members : List Member) (h : Option Handle) : State :=
  members.foldl (fun s m => s.setMembership m.rail h) s

/-- Every powered member goes FALLING at once (R114). -/
def State.fallAll (s : State) (members : List Member) : State :=
  members.foldl (fun s m => s.enterFalling m.rail) s

/-- Every member's rail is down (R116). -/
def State.allDown (s : State) (members : List Member) : Bool := members.all fun m => (s.rail m.rail).down

/-- Some member's rail is LOCKED (R130). -/
def State.anyLocked (s : State) (members : List Member) : Bool :=
  members.any fun m => (s.rail m.rail).state == .locked

/-- The live lease a rail is a member of, with its slot (R98). -/
def State.leaseOfRail (s : State) (r : RailId) : Option (SlotId × Lease) :=
  match (s.rail r).lease with
  | some h => (s.liveLease h).map fun l => (h.slot, l)
  | none => none

end Sys2Proof.Machine
end

