-- ==== Sys2Proof/Machine/LeaseOps.lean ====
section
/-! DEFINITION. The budget's totals and fit tests (R57 to R63), the deferred queue's order (R76 to R80), and the lease engine's
shared operations: a change of state with its marker, the start sequence, the stop sequence, the end of a stop, the end of a
lease, and the shed pass. -/

namespace Sys2Proof.Machine

/-! ### The budget -/

namespace State

/-- The sum of the capacities of the PRESENT feeds. -/
def presentCapacity (s : State) : Nat :=
  ((List.finRange 3).map fun f => if (s.feed f).state = .present then (s.feed f).capacity else 0).sum

/-- The sum of all feed capacities, whatever their states. -/
def totalCapacity (s : State) : Nat := ((List.finRange 3).map fun f => (s.feed f).capacity).sum

/-- The available budget (R57): never negative. -/
def available (s : State) : Nat := s.presentCapacity - s.margin

/-- The fit test (R61). -/
def fits (s : State) (t : TenantId) (c : Nat) : Bool :=
  decide (s.chargedTotal + c ≤ s.available ∧ (s.account t).charged + c ≤ (s.account t).quota)

/-- The never-fits test (R62), on the signed difference. -/
def neverFits (s : State) (t : TenantId) (c : Nat) : Bool :=
  decide ((s.totalCapacity : Int) - s.margin < c ∨ (s.account t).quota < c)

/-- Adds a charge to one tenant's charged total. -/
def addCharged (s : State) (t : TenantId) (c : Nat) : State :=
  s.setAccount t { s.account t with charged := (s.account t).charged + c }

/-- Takes a charge from one tenant's charged total. -/
def subCharged (s : State) (t : TenantId) (c : Nat) : State :=
  s.setAccount t { s.account t with charged := (s.account t).charged - c }

/-- Charges `c` in all three totals (R60). -/
def charge (s : State) (t : TenantId) (c : Nat) : State :=
  { s with chargedTotal := s.chargedTotal + c, committedTotal := s.committedTotal + c }.addCharged t c

/-- Credits `c` in all three totals (R60). -/
def creditAll (s : State) (t : TenantId) (c : Nat) : State :=
  { s with chargedTotal := s.chargedTotal - c, committedTotal := s.committedTotal - c }.subCharged t c

/-- Credits `c` in the charged totals alone: the end of a stop (R60). -/
def creditHeld (s : State) (t : TenantId) (c : Nat) : State :=
  { s with chargedTotal := s.chargedTotal - c }.subCharged t c

/-- A lease joins the tail of the grant order list (R63). -/
def joinList (s : State) (h : Handle) : State := { s with grantOrder := s.grantOrder ++ [h] }

/-- A lease leaves the grant order list (R63). -/
def leaveList (s : State) (h : Handle) : State := { s with grantOrder := s.grantOrder.filter (· ≠ h) }

/-- Removes a lease's entry from the deferred queue; the entries behind it move up (R78). -/
def removeEntry (s : State) (h : Handle) : State := { s with queue := s.queue.filter (·.handle ≠ h) }

end State

/-! ### The deferred queue -/

/-- Whether an entry is blocking under a pass limit (R77). -/
def QueueEntry.blocking (limit : Nat) (e : QueueEntry) : Bool :=
  match e.kind with
  | .restore => true
  | .claim _ count => decide (limit ≠ 0 ∧ limit ≤ count)

/-- Pass count increased by 1, at most 15; a RESTORE entry keeps 0 (R76, R77). -/
def QueueEntry.passed (e : QueueEntry) : QueueEntry :=
  match e.kind with
  | .restore => e
  | .claim d count => { e with kind := .claim d (min 15 (count + 1)) }

/-- The class of an entry's lease (R76). -/
def State.entryClass (s : State) (e : QueueEntry) : Nat :=
  match s.lease? e.handle.slot with
  | some l => l.cls
  | none => 0

/-- The entry stands before a new RESTORE entry of a class: it is a RESTORE entry of the same or a higher class (R78). -/
def State.before (s : State) (cls : Nat) (e : QueueEntry) : Bool :=
  (e.kind == .restore) && decide (cls ≤ s.entryClass e)

/-- Inserts a RESTORE entry (R78, R80). -/
def State.insertRestore (s : State) (h : Handle) (cls : Nat) : State :=
  { s with queue := s.queue.takeWhile (s.before cls) ++ { handle := h, kind := .restore } :: s.queue.dropWhile (s.before cls) }

/-- Places a CLAIM entry at the tail (R46, R78). -/
def State.insertClaim (s : State) (h : Handle) (deadline : Nat) : State :=
  { s with queue := s.queue ++ [{ handle := h, kind := .claim deadline 0 }] }

/-- The queue has room for a RESTORE entry: fewer than 8 entries, and the service is SERVING (R80). -/
def State.restoreRoom (s : State) : Bool := decide (s.queue.length < 8 ∧ s.service = .serving)

/-! ### A change of a lease -/

namespace Happening

/-- Writes a lease's record. -/
def putLease (h : Happening) (i : SlotId) (l : Lease) : Happening := h.map fun s => s.setLease i l

/-- Writes a lease's record with its change count advanced by 1, and asks for its marker (R16, R17). -/
def changeLease (h : Happening) (i : SlotId) (l : Lease) (reason : Reason) : Happening :=
  (h.putLease i { l with count := l.count + 1 }).mark l.tenant (.lease (h.st.handleOf i)) reason

/-! ### The start sequence -/

/-- Member `k` of a lease begins to rise (R100, R105, R107). -/
def raiseMember (h : Happening) (l : Lease) (k : Nat) : Happening :=
  match l.members[k]? with
  | some m => h.map fun s => s.enterRising m.rail m.voltage m.current
  | none => h

/-- A lease enters STARTING from WAITING, SUSPENDED or RETRY_WAIT, and its start sequence begins (R8, R84, R105, R132). -/
def restart (h : Happening) (i : SlotId) (l : Lease) : Happening :=
  (h.changeLease i { l with state := .starting (.rising 0) } .starting).raiseMember l 0

/-- The step delay of member `k` ends (R107). -/
def stepOver (h : Happening) (i : SlotId) (l : Lease) (k : Nat) : Happening :=
  if k + 1 < l.members.length then
    (h.putLease i { l with state := .starting (.rising (k + 1)) }).raiseMember l (k + 1)
  else
    h.changeLease i { l with state := .active } .active

end Happening

/-! ### The end of a lease -/

/-- The end reason that a stop cause gives (R13, R130 rows 5 and 8). A FAULT stop ends by rows 1 to 3 only, so its line is never
used. -/
def StopCause.endReason : StopCause → EndReason
  | .released => .released
  | .revoked => .revoked
  | .lapsed => .lapsed
  | .shed => .shed
  | .fault => .faultLockout
  | .tenantClosed => .tenantClosed
  | .serviceStopped => .serviceStopped
  | .emergency => .emergency

/-- What a lease gives back when it ends: the charge it holds, its place on the grant order list, its queue entry (R12, R13,
R60, R88). -/
def Happening.giveBack (h : Happening) (i : SlotId) (l : Lease) : Happening :=
  match l.state with
  | .retryWait _ => (h.map fun s => (s.creditAll l.tenant l.charge).leaveList (s.handleOf i)).risen
  | .stopping _ => (h.map fun s => s.creditHeld l.tenant l.charge).risen
  | .waiting | .suspended => h.map fun s => s.removeEntry (s.handleOf i)
  | _ => h

/-- A lease enters ENDED (R12, R13, R17, R18). -/
def Happening.endLease (h : Happening) (i : SlotId) (l : Lease) (reason : EndReason) : Happening :=
  let h1 := (h.giveBack i l).map fun s => s.setMemberships l.members none
  ((h1.changeLease i { l with state := .ended reason, term := none } .ended).loosen i).checked

/-! ### The stop sequence -/

/-- The member in turn: the highest-indexed member whose rail is not down (R112). -/
def State.turnOf (s : State) (members : List Member) : Option Nat :=
  (List.range members.length).reverse.find? fun k =>
    match members[k]? with
    | some m => !(s.rail m.rail).down
    | none => false

/-- Chooses the member in turn; a powered one goes FALLING (R112, R113). -/
def Happening.takeTurn (h : Happening) (i : SlotId) (l : Lease) (stop : StopRecord) : Happening :=
  let turn := h.st.turnOf l.members
  let h1 := h.putLease i { l with state := .stopping { stop with inTurn := turn } }
  match turn with
  | some k =>
    match l.members[k]? with
    | some m => h1.map fun s => s.enterFalling m.rail
    | none => h1
  | none => h1

/-- The outcome of a stop (R130). -/
inductive StopOutcome where
  | retry
  | suspend
  | finish (reason : EndReason)
  deriving DecidableEq, Repr

/-- The stop-completion decision: the first row of R130 whose conditions hold. -/
def State.stopOutcome (s : State) (l : Lease) (stop : StopRecord) : StopOutcome :=
  let locked := s.anyLocked l.members
  let closing := (s.tenant l.tenant).state == .closing
  if stop.cause = .fault then
    if locked then .finish .faultLockout
    else if closing then .finish .tenantClosed
    else
      match s.service with
      | .draining .serviceStopped _ => .finish .serviceStopped
      | .draining .emergency _ => .finish .emergency
      | _ => .retry
  else if locked then .finish stop.cause.endReason
  else if stop.suspendMark && !closing && s.restoreRoom then .suspend
  else if stop.suspendMark then .finish .shed
  else .finish stop.cause.endReason

/-- The longest backoff, ms (R131). -/
def backoffCap : Nat := 30000

/-- The backoff of a stop over its faulted set (R131). -/
def State.backoff (s : State) (faulted : List RailId) : Nat :=
  min backoffCap
    ((faulted.map fun r => (s.config r).backoffBase * 2 ^ ((s.faultRecord r).count - 1)).foldl max 0)

/-- A lease's term deadline has passed (R11). -/
def State.termPassed (s : State) (l : Lease) : Bool :=
  match l.term with
  | some t => decide (t.deadline ≤ s.now)
  | none => false

/-- A completed stop returns its lease to RETRY_WAIT (R11, R60, R131). -/
def Happening.enterRetry (h : Happening) (i : SlotId) (l : Lease) (stop : StopRecord) : Happening :=
  let h1 := h.map fun s => { s with committedTotal := s.committedTotal + l.charge }.joinList (s.handleOf i)
  h1.changeLease i { l with state := .retryWait (h.st.now + h.st.backoff stop.faulted) } .retryWait

/-- A lease becomes SUSPENDED with a RESTORE entry; its charge field takes the price of its restore (R11, R68, R80). -/
def Happening.enterSuspended (h : Happening) (i : SlotId) (l : Lease) : Happening :=
  let h1 := h.map fun s => s.insertRestore (s.handleOf i) l.cls
  h1.changeLease i { l with state := .suspended, charge := chargeOf l.members } .suspended

/-- Carries out a stop's outcome (R11). A lease suspended after its term's deadline lapses at once. The RETRY_WAIT outcome's lapse
and shed pass are `completeStop`'s. -/
def Happening.settleStop (h : Happening) (i : SlotId) (l : Lease) (stop : StopRecord) : Happening :=
  match h.st.stopOutcome l stop with
  | .retry => h.enterRetry i l stop
  | .suspend =>
    let h1 := (h.map fun s => s.creditHeld l.tenant l.charge).risen.enterSuspended i l
    match h1.st.lease? i with
    | some l1 => if h1.st.termPassed l1 then h1.endLease i l1 .lapsed else h1
    | none => h1
  | .finish reason => h.endLease i l reason

/-- The values of a member after its change, if it has one (R15). -/
def MemberChange.apply (c : MemberChange) (m : Member) : Member :=
  { m with tier := c.tier, voltage := c.voltage, current := c.current, charge := c.charge }

/-- The member at an index, with its pending change applied (R15). -/
def changedMember (changes : List MemberChange) (k : Nat) (m : Member) : Member :=
  match changes.find? (·.member = k) with
  | some c => c.apply m
  | none => m

/-- The member list with the pending changes applied (R15). -/
def applyChanges (changes : List MemberChange) (members : List Member) : List Member :=
  members.mapIdx (changedMember changes)

/-- A lease whose pending adjustment is resolved by a stop (R15, R52): the pending values become the member values; a FAULT takes
the new charge at once, any other cause keeps the greater. -/
def Lease.resolved (l : Lease) (cause : StopCause) : Lease :=
  match l.state with
  | .adjusting a =>
    { l with members := applyChanges a.changes l.members, charge := if cause = .fault then a.newCharge else l.charge }
  | _ => l

/-- The stop record on entry to STOPPING (R9). -/
def stopRecord (l : Lease) (cause : StopCause) (fault : Option (RailId × FaultKind)) : StopRecord :=
  { cause := cause
    mode := if cause = .emergency then .unsequenced else .sequenced
    faulted := (fault.map Prod.fst).toList
    firstFault := fault.map Prod.snd
    suspendMark := decide (cause = .shed) && l.resume
    inTurn := none }

/-- The record of the stop under way, if the lease is STOPPING. -/
def Lease.stop? (l : Lease) : Option StopRecord :=
  match l.state with
  | .stopping stop => some stop
  | _ => none

/-- Begins the stop sequence of a lease that has entered STOPPING: every member down completes the stop (R112, R116); otherwise
the mode says which members fall (R112, R114). -/
def Happening.beginStop (h : Happening) (i : SlotId) (l : Lease) (stop : StopRecord) : Happening :=
  if h.st.allDown l.members then h.settleStop i l stop
  else
    match stop.mode with
    | .sequenced => h.takeTurn i l stop
    | .unsequenced => h.map fun s => s.fallAll l.members

/-- The part of a charge that a lower new charge gives back. -/
def Happening.creditFall (h : Happening) (t : TenantId) (old new : Nat) : Happening :=
  if new < old then (h.map fun s => s.creditAll t (old - new)).risen else h

/-- A lease in STARTING, ACTIVE or ADJUSTING enters STOPPING (R9, R52, R60, R123). -/
def Happening.stopLease (h : Happening) (i : SlotId) (l : Lease) (cause : StopCause) (fault : Option (RailId × FaultKind)) :
    Happening :=
  let r := l.resolved cause
  let stop := stopRecord l cause fault
  let h1 := h.creditFall l.tenant l.charge r.charge
  let h2 := h1.map fun s => { s with committedTotal := s.committedTotal - r.charge }.leaveList (s.handleOf i)
  let h3 := h2.changeLease i { r with state := .stopping stop } .stopping
  match h3.st.lease? i with
  | some l3 => h3.beginStop i l3 stop
  | none => h3

/-- An EMERGENCY cause reaches a STOPPING lease (R10, R114). -/
def Happening.unsequence (h : Happening) (i : SlotId) (l : Lease) (stop : StopRecord) : Happening :=
  (h.putLease i { l with state := .stopping { stop with mode := .unsequenced, inTurn := none } }).map
    fun s => s.fallAll l.members

/-- A stop cause other than FAULT reaches a lease (R9, R10, R13, R14, R21 to R23, R186, R188). -/
def Happening.stopCause (h : Happening) (i : SlotId) (l : Lease) (cause : StopCause) : Happening :=
  match l.state with
  | .waiting | .suspended | .retryWait _ => h.endLease i l cause.endReason
  | .starting _ | .active | .adjusting _ => h.stopLease i l cause none
  | .stopping stop => if cause = .emergency then h.unsequence i l stop else h
  | .ended _ => h

/-! ### The shed pass (R67, R68) -/

/-- The class a handle on the grant order list is ranked by. -/
def State.classOf (s : State) (h : Handle) : Nat :=
  match s.lease? h.slot with
  | some l => l.cls
  | none => 0

/-- The victim: the lowest class, and within a class the one nearest the tail (R67). -/
def State.victim (s : State) : Option Handle :=
  s.grantOrder.foldl
    (fun best h =>
      match best with
      | none => some h
      | some b => if s.classOf h ≤ s.classOf b then some h else some b)
    none

/-- The treatment of one victim by its state (R68). -/
def Happening.shed (h : Happening) (v : Handle) : Happening :=
  match h.st.lease? v.slot with
  | some l =>
    match l.state with
    | .retryWait _ =>
      if l.resume && h.st.restoreRoom then
        (h.map fun s => (s.creditAll l.tenant l.charge).leaveList v).risen.enterSuspended v.slot l
      else h.endLease v.slot l .shed
    | .starting _ | .active | .adjusting _ => h.stopLease v.slot l .shed none
    | _ => h.map fun s => s.leaveList v
  | none => h.map fun s => s.leaveList v

/-- The shed pass: while the committed total exceeds the available budget, one victim leaves the list (R67). The list's length
bounds the victims. -/
def Happening.shedWhile : Nat → Happening → Happening
  | 0, h => h
  | fuel + 1, h =>
    if h.st.available < h.st.committedTotal then
      match h.st.victim with
      | some v => Happening.shedWhile fuel (h.shed v)
      | none => h
    else h

/-- The shed pass over the present grant order list (R67). -/
def Happening.shedPass (h : Happening) : Happening := Happening.shedWhile h.st.grantOrder.length h

/-! ### The end of a stop -/

/-- A lease's lapse at the end of its stop, if its term's deadline passed and it has not ended (R11, R21). -/
def Happening.lapsePassed (h : Happening) (i : SlotId) : Happening :=
  match h.st.lease? i with
  | some l => if h.st.termPassed l then h.stopCause i l .lapsed else h
  | none => h

/-- The slot holds a live lease. -/
def State.liveAt (s : State) (i : SlotId) : Bool :=
  match s.lease? i with
  | some l => l.live
  | none => false

/-- The lapse of R11 and the shed pass of R69 in one stop completion. R11 fixes that the lease ends LAPSED, so a pass that would end
it with SHED does not come first; otherwise the order is open (log entry 9). -/
def Happening.lapseAndShed (h : Happening) (i : SlotId) : Happening :=
  let h1 := h.map State.chosen
  if h1.shedPass.st.liveAt i = false ∨ Config.lapseBeforeShed h.st.choices = true then (h1.lapsePassed i).shedPass
  else h1.shedPass.lapsePassed i

/-- The stop of a lease is complete (R11, R116, R130). A lease returned to RETRY_WAIT may call for the shed pass of R69 and for the
lapse of R11. -/
def Happening.completeStop (h : Happening) (i : SlotId) (l : Lease) (stop : StopRecord) : Happening :=
  let h1 := h.settleStop i l stop
  match h.st.stopOutcome l stop with
  | .retry =>
    if h.st.termPassed l then h1.lapseAndShed i else h1.shedPass
  | _ => h1

/-- A member's rail has come down: the stop of its lease completes, or advances if the rail was the member in turn (R113,
R116). -/
def Happening.railDown (h : Happening) (r : RailId) : Happening :=
  match h.st.leaseOfRail r with
  | some (i, l) =>
    match l.state with
    | .stopping stop =>
      if h.st.allDown l.members then h.completeStop i l stop
      else
        match stop.inTurn with
        | some k => if (l.members[k]?).map Member.rail = some r then h.takeTurn i l stop else h
        | none => h
    | _ => h
  | none => h

/-! ### Faults at a rail (R122 to R125) -/

/-- The faulted set of a stop with a rail added once; the first fault kind is kept if present (R124). -/
def StopRecord.withFault (stop : StopRecord) (r : RailId) (kind : FaultKind) : StopRecord :=
  { stop with
    faulted := if r ∈ stop.faulted then stop.faulted else stop.faulted ++ [r]
    firstFault := some (stop.firstFault.getD kind) }

/-- A fault's effect on the lease of its rail (R123, R124, R125). -/
def Happening.faultLease (h : Happening) (r : RailId) (kind : FaultKind) : Happening :=
  match h.st.leaseOfRail r with
  | some (i, l) =>
    match l.state with
    | .starting _ | .active | .adjusting _ => h.stopLease i l .fault (some (r, kind))
    | .stopping stop => h.putLease i { l with state := .stopping (stop.withFault r kind) }
    | _ => h
  | none => h

/-- A fault reaches the fault unit (R122 to R125): counted first; a powered rail goes FALLING; then the lease is stopped, or its
stop records the fault. -/
def Happening.fault (h : Happening) (r : RailId) (kind : FaultKind) : Happening :=
  (h.map fun s => (s.countFault r kind).enterFalling r).faultLease r kind

end Sys2Proof.Machine
end

