-- ==== Sys2Proof/Machine/Settle.lean ====
section
/-! DEFINITION. How commands finish and how a happening ends: the scan of the deferred queue (R83 to R85), the end of a drain
(R189), the end of a teardown (R158), the completions and then the markers that join the outbound queues (R169, R170), and the
ENDED slots that R18 frees. -/

namespace Sys2Proof.Machine

/-! ### Command contexts -/

/-- Frees a command context (R163): the tenant that held it has one fewer in flight. -/
def State.freeContext (s : State) (c : CtxId) : State :=
  match s.context c with
  | some x =>
    (s.setContext c none).setTenant x.tenant { s.tenant x.tenant with inFlight := (s.tenant x.tenant).inFlight - 1 }
  | none => s

/-- Writes a context's stage. -/
def State.setStage (s : State) (c : CtxId) (stage : Stage) : State :=
  match s.context c with
  | some x => s.setContext c (some { x with stage := stage })
  | none => s

/-- Sets a tenant's command under way. -/
def State.setUnderWay (s : State) (t : TenantId) (b : Bool) : State :=
  s.setTenant t { s.tenant t with underWay := b }

/-- The context of a tenant whose stage satisfies a test. -/
def State.findContext (s : State) (t : TenantId) (p : Stage → Bool) : Option (CtxId × Context) :=
  (List.finRange 24).findSome? fun c =>
    match s.context c with
    | some x => if x.tenant = t ∧ p x.stage then some (c, x) else none
    | none => none

/-- The tenant holds a context (R158). -/
def State.holdsContext (s : State) (t : TenantId) : Bool :=
  (List.finRange 24).any fun c =>
    match s.context c with
    | some x => x.tenant == t
    | none => false

/-- A command finishes (R166, R169): its context is finished, command under way is cleared, and its completion joins the queue at
the end of the happening, before the happening's markers. -/
def Happening.answer (h : Happening) (c : CtxId) (status : Status) (detail : Detail) (handle : Option Handle) (charge : Nat) :
    Happening :=
  match h.st.context c with
  | some x =>
    { h with
      st := (h.st.setStage c .finished).setUnderWay x.tenant false
      answers := h.answers ++
        [(x.tenant,
          { ctx := c, tag := recordTag x.record, kind := recordKind x.record, status := status, detail := detail,
            handle := handle, charge := charge })] }
  | none => h

/-- A command finishes with a status and no handle, charge or detail. -/
def Happening.reply (h : Happening) (c : CtxId) (status : Status) : Happening := h.answer c status .none none 0

/-! ### The scan -/

/-- Pass counts of skipped entries rise by one grant (R85). -/
def State.passSkipped (s : State) (skipped : List Handle) : State :=
  { s with queue := s.queue.map fun e => if e.handle ∈ skipped then e.passed else e }

/-- Some skipped entry is blocking now (R85). -/
def State.skippedBlocks (s : State) (skipped : List Handle) : Bool :=
  s.queue.any fun e => decide (e.handle ∈ skipped) && e.blocking s.passLimit

/-- The grant of an entry in a scan, in the order of R84. -/
def Happening.grantEntry (h : Happening) (e : QueueEntry) (l : Lease) (skipped : List Handle) : Happening :=
  let l1 : Lease := { l with state := .starting (.rising 0) }
  let h1 := (h.map fun s => s.removeEntry e.handle).changeLease e.handle.slot l1 .starting
  let h2 := h1.map fun s => ((s.charge l.tenant l.charge).joinList e.handle).passSkipped skipped
  h2.raiseMember l1 0

/-- The walk of a scan over the entries not yet tested (R83, R85). -/
def Happening.walk (h : Happening) (skipped : List Handle) : List QueueEntry → Happening
  | [] => h
  | e :: rest =>
    match h.st.liveLease e.handle with
    | some l =>
      if h.st.fits l.tenant l.charge then
        let h1 := h.grantEntry e l skipped
        if h1.st.skippedBlocks skipped then h1 else h1.walk skipped rest
      else if e.blocking h.st.passLimit then h
      else h.walk (skipped ++ [e.handle]) rest
    | none => h.walk skipped rest

/-- The scan of the deferred queue from its head (R83). -/
def Happening.scan (h : Happening) : Happening := h.walk [] h.st.queue

/-! ### Drains and teardowns -/

/-- The stage is a STOP_SERVICE's wait. -/
def Stage.isDraining : Stage → Bool
  | .draining => true
  | _ => false

/-- The stage is the teardown of a tenant. -/
def Stage.isTearing (n : TenantId) : Stage → Bool
  | .tearing m => m == n
  | _ => false

/-- Ends the drain if no live lease is left (R189): CONFIGURING, and a waiting STOP_SERVICE finishes OK. -/
def Happening.drainEnd (h : Happening) : Happening :=
  match h.st.service with
  | .draining _ waiting =>
    if h.st.anyLive then h
    else
      let h1 := h.map fun s => { s with service := .configuring }
      if waiting then
        match h1.st.findContext admin Stage.isDraining with
        | some (c, _) => h1.reply c .ok
        | none => h1
      else h1
  | _ => h

/-- Ends the teardown of a CLOSING tenant that has no live lease and holds no context (R158): CLOSED, and the CLOSE_TENANT
finishes OK. -/
def Happening.teardownEnd (h : Happening) (n : TenantId) : Happening :=
  if (h.st.tenant n).state = .closing ∧ h.st.holdsLease n = false ∧ h.st.holdsContext n = false then
    let h1 := h.map fun s => s.setTenant n { s.tenant n with state := .closed, desc := none }
    match h1.st.findContext admin (Stage.isTearing n) with
    | some (c, _) => h1.reply c .ok
    | none => h1
  else h

/-- Ends what drains and teardowns can end. -/
def Happening.endings (h : Happening) : Happening :=
  (List.finRange 4).foldl Happening.teardownEnd h.drainEnd

/-! ### The outbound queues -/

/-- A tenant's outbound queue takes completions and markers: OPEN or BROKEN (R152, R154, R169). -/
def Tenant.hears (t : Tenant) : Bool :=
  match t.state with
  | .isOpen | .broken => true
  | _ => false

/-- A completion joins the tail of its tenant's queue, or is discarded with its context (R169). -/
def State.postCompletion (s : State) (t : TenantId) (c : Completion) : State :=
  if (s.tenant t).hears then s.setTenant t { s.tenant t with outbound := (s.tenant t).outbound ++ [.completion c] }
  else s.freeContext c.ctx

/-- The entry is a marker for a subject. -/
def OutEntry.isMarker (subject : Subject) : OutEntry → Bool
  | .marker x _ => x == subject
  | .completion _ => false

/-- A queue with a marker added: in place where the subject's marker stands, at the tail otherwise (R170). -/
def addMarker (subject : Subject) (reason : Reason) (q : List OutEntry) : List OutEntry :=
  if q.any (OutEntry.isMarker subject) then
    q.map fun e => if e.isMarker subject then .marker subject reason else e
  else q ++ [.marker subject reason]

/-- A marker is added to a tenant's queue, unless the tenant is CLOSING or CLOSED (R17, R74, R152). -/
def State.postMarker (s : State) (t : TenantId) (subject : Subject) (reason : Reason) : State :=
  if (s.tenant t).hears then s.setTenant t { s.tenant t with outbound := addMarker subject reason (s.tenant t).outbound }
  else s

/-- Some outbound queue holds a marker for a handle (R18). -/
def State.marked (s : State) (h : Handle) : Bool :=
  (List.finRange 4).any fun t => (s.tenant t).outbound.any (OutEntry.isMarker (.lease h))

/-- The next generation of a slot: 4095 is followed by 1 (R1, R18). -/
def nextGen (g : BitVec 12) : BitVec 12 := if g = 4095 then 1 else g + 1

/-- Frees the slot of an ENDED lease for whose handle no queue holds a marker (R18). -/
def State.freeEnded (s : State) (i : SlotId) : State :=
  match s.lease? i with
  | some l =>
    if l.live = false ∧ s.marked (s.handleOf i) = false then s.setSlot i { gen := nextGen (s.slot i).gen, lease := none } else s
  | none => s

/-- The happening's completions, then its markers, then the slots it frees (R169, R170, R18). -/
def Happening.flush (h : Happening) : State :=
  let s1 := h.answers.foldl (fun s a => s.postCompletion a.1 a.2) h.st
  let s2 := h.marks.foldl (fun s m => s.postMarker m.1 m.2.1 m.2.2) s1
  h.loose.foldl State.freeEnded s2

/-- The end of a happening: one scan if it contains a budget rise, made after every other effect (R64); then the drains and
teardowns it ends; then the queues. -/
def Happening.settle (h : Happening) : State :=
  let h1 := if h.rise then h.scan else h
  let h2 := if h1.check then h1.endings else h1
  h2.flush

/-! ### Commands at their block -/

/-- The stage of a command taken and not yet carried out. -/
def Stage.isTaken : Stage → Bool
  | .taken => true
  | _ => false

/-- The command that a tenant's context holds taken and not yet carried out, with its context (R163, R168). -/
def State.takenCommand (s : State) (t : TenantId) : Option (CtxId × Command) :=
  match s.findContext t Stage.isTaken with
  | some (c, x) => (Command.read x.record).map fun cmd => (c, cmd)
  | none => none

/-- A command refused, or finished with a status alone, with no other effect. -/
def State.refuse (s : State) (c : CtxId) (status : Status) (detail : Detail) : State :=
  (s.begin.answer c status detail none 0).settle

/-- A query whose checks have passed (R168): the buffer address is a multiple of 64, and the report's write begins; the command
stays under way. -/
def State.beginReport (s : State) (c : CtxId) (buffer : Nat) (report : List Byte) : State :=
  if buffer % 64 = 0 then s.setStage c (.reporting (BitVec.ofNat 64 buffer) report .live)
  else s.refuse c .badValue .none

end Sys2Proof.Machine
end

