-- ==== Sys2Proof/Machine/Claims.lean ====
section
/-! DEFINITION. The claim evaluator: tiers and prices (R29 to R33), CLAIM (R34 to R47), ADJUST (R48 to R52), SET_TIERS (R31). -/

namespace Sys2Proof.Machine

/-! ### Pricing -/

/-- The charge of a member at a tier (R30, R33): the cap for CAPPED, else the ceiling of voltage × current / 1000. -/
def Tier.price (t : Tier) (voltage current : Nat) : Nat :=
  match t.kind with
  | .capped => t.cap
  | _ => ceilDiv (voltage * current) 1000

/-- The highest current a tier grants at a voltage (R30). -/
def Tier.currentBound (t : Tier) (voltage : Nat) : Nat :=
  match t.kind with
  | .capped => min t.imax (t.cap * 1000 / voltage)
  | _ => t.imax

/-- The voltage a tier grants to an explicit spec's voltage (R38): 0 is a FIXED tier's own; `none` where the tier does not allow
it. -/
def Tier.grantVoltage (t : Tier) (voltage : Nat) : Option Nat :=
  match t.kind with
  | .fixed => if voltage = 0 ∨ voltage = t.vmin then some t.vmin else none
  | _ => if t.vmin ≤ voltage ∧ voltage ≤ t.vmax ∧ voltage % 10 = 0 then some voltage else none

/-- An explicit spec's values judged against a tier list (R38): the granted tier index, voltage, current and charge, or none where
they are invalid. -/
def grantExplicit (tiers : List Tier) (tier voltage current : Nat) : Option (Nat × Nat × Nat × Nat) :=
  match tiers[tier]? with
  | some t =>
    match t.grantVoltage voltage with
    | some v => if 1 ≤ current ∧ current ≤ t.currentBound v then some (tier, v, current, t.price v current) else none
    | none => none
  | none => none

/-! ### Automatic selection -/

/-- A candidate of an automatic member (R39). Its offered power is its charge. -/
structure Candidate where
  kind    : TierKind
  tier    : Nat
  voltage : Nat
  current : Nat
  charge  : Nat
  deriving DecidableEq, Repr

/-- An automatic spec's values are valid (R39). -/
def autoValid (preference low high maxCurrent : Nat) : Bool :=
  decide (500 ≤ low ∧ low ≤ high ∧ high ≤ 48000 ∧ 1 ≤ maxCurrent ∧ maxCurrent ≤ 40000 ∧ preference ≤ 1)

/-- The candidate's voltage in the overlap from `lo` to `hi` (R39): for HIGH (0) the top rounded down to the 10 mV grid, for LOW
the bottom rounded up; none where the overlap is empty or holds no grid voltage. -/
def overlapVoltage (preference lo hi : Nat) : Option Nat :=
  let v := if preference = 0 then hi / 10 * 10 else ceilDiv lo 10 * 10
  if lo ≤ hi ∧ lo ≤ v ∧ v ≤ hi then some v else none

/-- The candidate a tier gives to an automatic spec, if any (R39). -/
def Tier.candidate (t : Tier) (index preference low high maxCurrent : Nat) : Option Candidate :=
  match overlapVoltage preference (max t.vmin low) (min t.vmax high) with
  | some v =>
    let current := min (t.currentBound v) maxCurrent
    if current = 0 then none
    else some { kind := t.kind, tier := index, voltage := v, current := current, charge := t.price v current }
  | none => none

/-- The candidates of a tier list, in list order (R39). -/
def candidates (tiers : List Tier) (preference low high maxCurrent : Nat) : List Candidate :=
  (tiers.mapIdx fun k t => t.candidate k preference low high maxCurrent).filterMap id

/-- FIXED before RANGED before CAPPED (R41). -/
def TierKind.rank : TierKind → Nat
  | .fixed => 0
  | .ranged => 1
  | .capped => 2

/-- Candidate `a` comes before candidate `b` by the keys of R41. -/
def Candidate.precedes (preference : Nat) (a b : Candidate) : Bool :=
  if a.charge ≠ b.charge then decide (b.charge < a.charge)
  else if a.kind.rank ≠ b.kind.rank then decide (a.kind.rank < b.kind.rank)
  else if a.voltage ≠ b.voltage then
    if preference = 0 then decide (b.voltage < a.voltage) else decide (a.voltage < b.voltage)
  else decide (a.tier < b.tier)

/-- Puts a candidate into a list ordered by preference. -/
def insertCandidate (preference : Nat) (x : Candidate) : List Candidate → List Candidate
  | [] => [x]
  | y :: ys => if x.precedes preference y then x :: y :: ys else y :: insertCandidate preference x ys

/-- The candidates in preference order (R41). -/
def orderCandidates (preference : Nat) (cs : List Candidate) : List Candidate :=
  cs.foldr (insertCandidate preference) []

/-- The usable candidates and the short mark (R40): those that qualify; where none does, under ALLOW_SHORT every candidate formed,
marked short. -/
def usable (cs : List Candidate) (minPower : Nat) (allowShort : Bool) : List Candidate × Bool :=
  let qualifying := cs.filter fun c => decide (100 * minPower ≤ c.charge)
  if qualifying ≠ [] then (qualifying, false)
  else if allowShort then (cs, true)
  else ([], false)

/-- The members a spec may become, in preference order: one for a valid explicit spec, the usable candidates for an automatic
one. -/
def State.choices? (s : State) (allowShort : Bool) (r : RailId) (spec : MemberSpec) : List Member :=
  match spec with
  | .explicit _ tier stepDelay voltage current =>
    match grantExplicit (s.tierList r) tier voltage current with
    | some (k, v, i, c) =>
      [{ rail := r, tier := k, auto := false, voltage := v, current := i, stepDelay := stepDelay, charge := c, short := false }]
    | none => []
  | .auto _ stepDelay preference low high minPower maxCurrent =>
    let u := usable (candidates (s.tierList r) preference low high maxCurrent) minPower allowShort
    (orderCandidates preference u.1).map fun c =>
      { rail := r, tier := c.tier, auto := true, voltage := c.voltage, current := c.current, stepDelay := stepDelay,
        charge := c.charge, short := u.2 }

/-! ### The checks of a CLAIM -/

/-- A member list is well formed (R36); it is read from the specs within the count. -/
def membersWellFormed (count : Nat) (specs : List MemberSpec) : Bool :=
  decide (1 ≤ count ∧ count ≤ 4) && specs.all (fun m => decide (m.rail < 12)) && decide (specs.map MemberSpec.rail).Nodup

/-- Each spec with the rail it names, once the list is well formed. -/
def railSpecs (specs : List MemberSpec) : List (RailId × MemberSpec) :=
  specs.filterMap fun m => (numbered 12 m.rail).map fun r => (r, m)

/-- A spec's values are valid for its rail (R38, R39). -/
def State.specValid (s : State) (r : RailId) (spec : MemberSpec) : Bool :=
  match spec with
  | .explicit _ tier _ voltage current => (grantExplicit (s.tierList r) tier voltage current).isSome
  | .auto _ _ preference low high _ maxCurrent => autoValid preference low high maxCurrent

/-- The first failing condition of a member (R37), or none. -/
def State.memberFault (s : State) (t : TenantId) (r : RailId) (spec : MemberSpec) : Option Status :=
  if (s.config r).configured = false then some .railDisabled
  else if (s.owned r).owner ≠ some t then some .notOwner
  else if (s.rail r).lease.isSome then some .railInUse
  else if (s.rail r).state = .locked then some .railLocked
  else if (s.rail r).state ≠ .off then some .railBusy
  else if s.specValid r spec = false then some .badValue
  else none

/-- The first failing member from an index on, in bundle order (R37). -/
def State.membersFault (s : State) (t : TenantId) (index : Nat) : List (RailId × MemberSpec) → Option (Status × Detail)
  | [] => none
  | (r, spec) :: rest =>
    match s.memberFault t r spec with
    | some status => some (status, .index index)
    | none => s.membersFault t (index + 1) rest

/-- Checks 1 to 7 of a CLAIM (R35): the first failure's status and detail, or none. -/
def State.claimFault (s : State) (t : TenantId) (a : ClaimArgs) : Option (Status × Detail) :=
  if s.service ≠ .serving then some (.notServing, .none)
  else if membersWellFormed a.count a.specs = false then some (.badMembers, .none)
  else if (s.account t).maxClass < a.cls then some (.priority, .none)
  else if 600 < a.wait then some (.badValue, .none)
  else
    match s.membersFault t 0 (railSpecs a.specs) with
    | some f => some f
    | none =>
      if s.freeSlot = none then some (.noLeaseSlot, .none)
      else
        match (railSpecs a.specs).findIdx? fun p => (s.choices? a.allowShort p.1 p.2).isEmpty with
        | some k => some (.noSuitableTier, .index k)
        | none => none

/-! ### The outcome of a CLAIM -/

/-- The fit-aware greedy choice from a running sum on (R42): each member takes the first of its choices whose charge leaves a sum
that fits; none where some member finds no choice. -/
def greedy (fits : Nat → Bool) (sum : Nat) : List (List Member) → Option (List Member)
  | [] => some []
  | options :: rest =>
    match options.find? fun m => fits (sum + m.charge) with
    | some m => (greedy fits (sum + m.charge) rest).map fun ms => m :: ms
    | none => none

/-- Some blocking entry is queued (R42, R77, R81). -/
def State.anyBlocking (s : State) : Bool := s.queue.any (QueueEntry.blocking s.passLimit)

/-- What a CLAIM that has passed checks 1 to 7 comes to (R42 to R44): its outcome with the members it is judged at. -/
inductive ClaimOutcome where
  | granted (members : List Member)
  | deferred (members : List Member)
  | refused (status : Status) (charge : Nat)
  deriving DecidableEq, Repr

/-- Steps 2 to 5 of R44, at the first preferences of R43. -/
def State.judgeFirst (s : State) (t : TenantId) (noWait : Bool) (members : List Member) : ClaimOutcome :=
  let c := chargeOf members
  if s.neverFits t c then .refused .exceedsCapacity c
  else if noWait then .refused .noHeadroom c
  else if 8 ≤ s.queue.length then .refused .queueFull c
  else .deferred members

/-- The outcome of a CLAIM (R42 to R44). -/
def State.claimOutcome (s : State) (t : TenantId) (noWait : Bool) (options : List (List Member)) : ClaimOutcome :=
  let first := options.filterMap List.head?
  if s.anyBlocking then s.judgeFirst t noWait first
  else
    match greedy (s.fits t) 0 options with
    | some members => .granted members
    | none => s.judgeFirst t noWait first

/-- The lease record a CLAIM creates (R2). -/
def newLease (now : Nat) (t : TenantId) (a : ClaimArgs) (members : List Member) (state : LeaseState) : Lease :=
  { state := state, tenant := t, cls := a.cls, resume := a.resume, short := members.any Member.short, members := members
    charge := chargeOf members
    term := if a.term = 0 then none else some { length := a.term, deadline := now + 1000 * a.term }
    count := 0 }

/-- Puts a new record into a slot and makes its rails members (R2, R98). -/
def State.createLease (s : State) (i : SlotId) (l : Lease) : State :=
  (s.setLease i l).setMemberships l.members (some (s.handleOf i))

/-- A granted claim (R45): the lease, its charge, the pass counts of every CLAIM entry, the start sequence. -/
def Happening.grantClaim (h : Happening) (t : TenantId) (a : ClaimArgs) (i : SlotId) (members : List Member) : Happening :=
  let l := newLease h.st.now t a members (.starting (.rising 0))
  let h1 := h.map fun s => ((s.createLease i l).charge t l.charge).joinList (s.handleOf i)
  let h2 := h1.map fun s => { s with queue := s.queue.map QueueEntry.passed }
  h2.raiseMember l 0

/-- The wait limit that applies to a claim, s (R46, R80). -/
def State.waitLimit (s : State) (wait : Nat) : Nat := if wait = 0 then s.defaultWait else wait

/-- A deferred claim (R46): the WAITING lease and its CLAIM entry at the tail. -/
def Happening.deferClaim (h : Happening) (t : TenantId) (a : ClaimArgs) (i : SlotId) (members : List Member) : Happening :=
  let l := newLease h.st.now t a members .waiting
  h.map fun s => (s.createLease i l).insertClaim (s.handleOf i) (s.now + 1000 * s.waitLimit a.wait)

/-- A CLAIM carried out (R34 to R47). -/
def State.claimBody (s : State) (t : TenantId) (c : CtxId) (a : ClaimArgs) : State :=
  match s.claimFault t a, s.freeSlot with
  | some (status, detail), _ => s.refuse c status detail
  | none, none => s.refuse c .noLeaseSlot .none
  | none, some i =>
    let options := (railSpecs a.specs).map fun p => s.choices? a.allowShort p.1 p.2
    match s.claimOutcome t a.noWait options with
    | .granted members =>
      ((s.begin.grantClaim t a i members).answer c .granted .none (some (s.handleOf i)) (chargeOf members)).settle
    | .deferred members =>
      ((s.begin.deferClaim t a i members).answer c .deferred .none (some (s.handleOf i)) (chargeOf members)).settle
    | .refused status charge => (s.begin.answer c status .none none charge).settle

/-- CLAIM (R35). -/
def claim (t : TenantId) (s : State) : State :=
  match s.takenCommand t with
  | some (c, .claim a) => s.claimBody t c a
  | _ => s

/-! ### ADJUST -/

/-- An ADJUST spec judged for the member at its position (R48, check 6): explicit, and valid by R38. -/
def State.adjustSpec (s : State) (m : Member) (spec : MemberSpec) : Option (Nat × Nat × Nat × Nat) :=
  match spec with
  | .explicit _ tier _ voltage current => grantExplicit (s.tierList m.rail) tier voltage current
  | .auto _ _ _ _ _ _ _ => none

/-- The specs name the lease's rails, position by position, and the counts agree (R48, check 5). -/
def specsMatch (count : Nat) (specs : List MemberSpec) (members : List Member) : Bool :=
  decide (count = members.length) && specs.map MemberSpec.rail == members.map fun m => m.rail.val

/-- Checks 1 to 6 of an ADJUST (R48): the first failure, or the slot, the lease and the values granted to each spec. -/
def State.adjustFault (s : State) (t : TenantId) (handle count : Nat) (specs : List MemberSpec) :
    (Status × Detail) ⊕ (SlotId × Lease × List (Nat × Nat × Nat × Nat)) :=
  let h := handleOfWord handle
  if s.service ≠ .serving then .inl (.notServing, .none)
  else
    match s.liveLease h with
    | none => .inl (.noSuchLease, .none)
    | some l =>
      if l.tenant ≠ t then .inl (.notOwner, .none)
      else if l.state ≠ .active then .inl (.leaseBusy, .none)
      else if specsMatch count specs l.members = false then .inl (.badMembers, .none)
      else
        let judged := List.zipWith s.adjustSpec l.members specs
        match judged.findIdx? Option.isNone with
        | some k => .inl (.badValue, .index k)
        | none => .inr (h.slot, l, judged.filterMap id)

/-- The change of a member that a spec's granted values make, if they differ from the member's (R49). A member that keeps its
tier, voltage and current is not changed. -/
def memberChange (k : Nat) (m : Member) (v : Nat × Nat × Nat × Nat) : Option MemberChange :=
  if m.tier = v.1 ∧ m.voltage = v.2.1 ∧ m.current = v.2.2.1 then none
  else some { member := k, tier := v.1, voltage := v.2.1, current := v.2.2.1, charge := v.2.2.2 }

/-- The changes an ADJUST makes (R49). -/
def memberChanges (members : List Member) (values : List (Nat × Nat × Nat × Nat)) : List MemberChange :=
  ((List.zip members values).mapIdx fun k p => memberChange k p.1 p.2).filterMap id

/-- The changed members whose voltage changes (R50, R51, R109). -/
def slewed (members : List Member) (changes : List MemberChange) : List MemberChange :=
  changes.filter fun c =>
    match members[c.member]? with
    | some m => decide (m.voltage ≠ c.voltage)
    | none => false

/-- The new current limits of an accepted ADJUST, and the slews of the members whose voltage changes (R50, R51, R109). -/
def State.adjustPorts (s : State) (members : List Member) (changes slews : List MemberChange) : State :=
  let limit := fun (s : State) (c : MemberChange) =>
    match members[c.member]? with
    | some m => s.setCurrent m.rail c.current
    | none => s
  let slew := fun (s : State) (c : MemberChange) =>
    match members[c.member]? with
    | some m => s.enterSlewing m.rail c.voltage
    | none => s
  slews.foldl slew (changes.foldl limit s)

/-- An accepted ADJUST (R15, R49 to R51, R109): a raise is charged; with no voltage change the values are written at once and a
fall is credited; with a voltage change the lease becomes ADJUSTING at the greater charge and its slews start together. Such an
ADJUST is at once a change of lease state and an accepted ADJUST, both of which R16 lists: DESIGN CHOICE, the change count advances
by 1 for the two together (log entry 29). -/
def Happening.acceptAdjust (h : Happening) (i : SlotId) (l : Lease) (changes : List MemberChange) (newCharge : Nat) : Happening :=
  let slews := slewed l.members changes
  let h1 := h.map fun s => (s.charge l.tenant (newCharge - l.charge)).adjustPorts l.members changes slews
  if slews = [] then
    (h1.changeLease i { l with members := applyChanges changes l.members, charge := newCharge } .adjusted).creditFall l.tenant
      l.charge newCharge
  else
    h1.changeLease i
      { l with
        state := .adjusting { changes := changes, newCharge := newCharge, slewing := slews.map MemberChange.member }
        charge := max l.charge newCharge }
      .adjusting

/-- An ADJUST carried out (R48 to R51). -/
def State.adjustBody (s : State) (t : TenantId) (c : CtxId) (handle count : Nat) (specs : List MemberSpec) : State :=
  match s.adjustFault t handle count specs with
  | .inl (status, detail) => s.refuse c status detail
  | .inr (i, l, values) =>
    let changes := memberChanges l.members values
    let newCharge := chargeOf (applyChanges changes l.members)
    if changes = [] then s.refuse c .ok .noChange
    else if l.charge < newCharge ∧ s.fits t (newCharge - l.charge) = false then s.refuse c .noHeadroom .none
    else
      ((s.begin.acceptAdjust i l changes newCharge).answer c .ok .none (some (s.handleOf i)) newCharge).settle

/-- ADJUST (R48). -/
def adjust (t : TenantId) (s : State) : State :=
  match s.takenCommand t with
  | some (c, .adjust handle count specs) => s.adjustBody t c handle count specs
  | _ => s

/-! ### SET_TIERS -/

/-- The service is CONFIGURING or SERVING: the states in which the admin's configuration commands are carried out. -/
def State.configurable (s : State) : Bool :=
  match s.service with
  | .configuring | .serving => true
  | _ => false

/-- The tier lies within a rail's limits (R31 check 5, R32). -/
def Tier.within (t : Tier) (floor ceiling currentCeiling : Nat) : Bool :=
  decide (floor ≤ t.vmin ∧ t.vmax ≤ ceiling ∧ t.imax ≤ currentCeiling)

/-- A tier entry judged by check 5 of R31: the tier, or none. -/
def TierEntry.judge (e : TierEntry) (cfg : RailConfig) : Option Tier :=
  match tierKindOf e.kind with
  | none => none
  | some kind =>
    let t : Tier := { kind := kind, vmin := e.vmin, vmax := e.vmax, imax := e.imax, cap := if kind = .capped then e.cap else 0 }
    if e.vmin % 10 = 0 ∧ e.vmax % 10 = 0 ∧ e.vmin ≤ e.vmax ∧ (kind = .fixed → e.vmin = e.vmax) ∧
        t.within cfg.floor cfg.ceiling cfg.currentCeiling ∧ 1 ≤ e.imax ∧
        (kind = .capped → 1 ≤ e.cap ∧ e.cap ≤ 1920000)
    then some t else none

/-- A SET_TIERS carried out (R31). -/
def State.setTiersBody (s : State) (c : CtxId) (rail count : Nat) (entries : List TierEntry) : State :=
  if s.configurable = false then s.refuse c .notServing .none
  else
    match numbered 12 rail with
    | none => s.refuse c .badValue .none
    | some r =>
      if (s.rail r).lease.isSome then s.refuse c .railInUse .none
      else if count < 1 ∨ 6 < count then s.refuse c .badValue .none
      else
        let judged := entries.map fun e => e.judge (s.config r)
        match judged.findIdx? Option.isNone with
        | some k => s.refuse c .badValue (.index k)
        | none => ((s.begin.map fun s => s.setTierList r (judged.filterMap id)).reply c .ok).settle

/-- SET_TIERS (R31). -/
def setTiers (s : State) : State :=
  match s.takenCommand admin with
  | some (c, .setTiers rail count entries) => s.setTiersBody c rail count entries
  | _ => s

/-! ### The meanings of the rows -/

/-- The row CLAIM (R35): it always has a next state. -/
def execClaim (t : TenantId) (s : State) : Host.Outcome State Fault Refusal :=
  .next (claim t s)

/-- The row ADJUST (R48): it always has a next state. -/
def execAdjust (t : TenantId) (s : State) : Host.Outcome State Fault Refusal :=
  .next (adjust t s)

/-- The row SET_TIERS (R31): it always has a next state. -/
def execSetTiers (s : State) : Host.Outcome State Fault Refusal :=
  .next (setTiers s)

end Sys2Proof.Machine
end

