-- ==== Sys2Proof/Machine/Records.lean ====
section
/-! DEFINITION. The records the part writes: completions and notices (R196), and the four reports (R197). -/

namespace Sys2Proof.Machine

/-! ### Times left (R193) -/

/-- The ms left to a deadline; 0 when it has been reached or none runs. -/
def msLeft (now : Nat) : Option Nat → Nat
  | some d => d - now
  | none => 0

/-- The whole seconds left to a deadline. -/
def secondsLeft (now : Nat) (d : Option Nat) : Nat := msLeft now d / 1000

/-! ### Completion-ring records (R196) -/

/-- The record of a completion (type 1). -/
def Completion.record (c : Completion) : List Byte :=
  [1, 1] ++ le 2 c.tag.toNat ++ [c.kind] ++ le 1 c.status.code ++ le 1 c.detail.code ++ zeros 1 ++ le 2 (handleField c.handle) ++
    zeros 2 ++ le 4 c.charge

/-- The record of a lease notice (type 2), from the lease as it stands (R171). A marker's handle always resolves (R18); for one
that does not, the record would carry the handle and reason alone. -/
def State.leaseNotice (s : State) (h : Handle) (reason : Reason) : List Byte :=
  match s.resolve h with
  | some l =>
    [1, 2] ++ le 2 (handleWord h) ++ le 1 reason.code ++ le 1 l.state.code ++ le 1 l.state.endCode ++ le 1 l.count.toNat ++
      le 1 l.tenant.val ++ zeros 3 ++ le 4 l.charge
  | none => [1, 2] ++ le 2 (handleWord h) ++ le 1 reason.code ++ zeros 11

/-- The offer's target and deadline, if one stands. -/
def Ownership.target (o : Ownership) : Option TenantId := o.offer.map Offer.target
def Ownership.expiry (o : Ownership) : Option Nat := o.offer.map Offer.deadline

/-- The record of a rail notice (type 3), from the rail as it stands (R152, R171). -/
def State.railNotice (s : State) (r : RailId) (reason : Reason) : List Byte :=
  [1, 3] ++ le 1 r.val ++ le 1 reason.code ++ le 1 (tenantField (s.owned r).owner) ++ le 1 (tenantField (s.owned r).target) ++
    le 1 (flagBit ((s.rail r).state == .locked) 0) ++ zeros 1 ++ le 2 (secondsLeft s.now (s.owned r).expiry) ++ zeros 6

/-- The record of a budget notice (type 4), from the totals as they stand (R74, R171). -/
def State.budgetNotice (s : State) (reason : Reason) : List Byte :=
  [1, 4] ++ le 1 reason.code ++ zeros 5 ++ le 4 s.available ++ le 4 s.chargedTotal

/-- The record built for an entry in the happening in which the writer takes it (R171, R172). -/
def State.recordOf (s : State) : OutEntry → List Byte
  | .completion c => c.record
  | .marker (.lease h) reason => s.leaseNotice h reason
  | .marker (.rail r) reason => s.railNotice r reason
  | .marker .budget reason => s.budgetNotice reason

/-! ### The lease report (R197) -/

/-- The state area of a lease report: 7 bytes. -/
def stateArea (now : Nat) (l : Lease) : List Byte :=
  match l.state with
  | .starting (.rising k) => le 1 k ++ zeros 6
  | .starting (.delay k d) => le 1 k ++ le 1 1 ++ le 1 (msLeft now (some d)) ++ zeros 4
  | .adjusting a => le 3 (chargeOf l.members) ++ le 3 a.newCharge ++ zeros 1
  | .stopping stop =>
    le 1 stop.cause.code ++ le 1 (flagBit (stop.mode == .unsequenced) 0 + flagBit stop.suspendMark 1) ++
      le 2 ((stop.faulted.map fun r => 2 ^ r.val).sum) ++ le 1 (faultField stop.firstFault) ++ zeros 2
  | .retryWait d => le 2 (msLeft now (some d)) ++ zeros 5
  | .ended r => le 1 r.code ++ zeros 6
  | .waiting | .active | .suspended => zeros 7

/-- A member entry of a lease report: 10 bytes. -/
def memberEntry (m : Member) (pending : Bool) : List Byte :=
  le 1 (m.rail.val + flagBit m.auto 4 + flagBit m.short 5 + flagBit pending 6) ++ le 1 m.tier ++ le 1 m.stepDelay ++
    le 2 m.voltage ++ le 2 m.current ++ le 3 m.charge

/-- The pending changes of a lease: those of an ADJUSTING one. -/
def Lease.changes (l : Lease) : List MemberChange :=
  match l.state with
  | .adjusting a => a.changes
  | _ => []

/-- The member entries of a lease report; a changed member of an ADJUSTING lease shows its pending values. -/
def memberEntries (l : Lease) : List Byte :=
  (l.members.mapIdx fun k m =>
    memberEntry (changedMember l.changes k m) (l.changes.any fun c => decide (c.member = k))).flatten

/-- The length and deadline of a term, if the lease has one. -/
def Lease.termLength (l : Lease) : Nat := (l.term.map Term.length).getD 0
def Lease.termDeadline (l : Lease) : Option Nat := l.term.map Term.deadline

/-- The lease report (type 1) of the record a handle names (R25, R26, R197). -/
def leaseReport (now : Nat) (h : Handle) (l : Lease) : List Byte :=
  let front :=
    le 1 1 ++ le 1 l.state.code ++ le 2 (handleWord h) ++ le 1 l.tenant.val ++ le 1 l.cls ++
      le 1 (flagBit l.resume 0 + flagBit l.short 1 + flagBit l.term.isSome 2) ++ le 1 l.count.toNat ++ le 4 l.charge ++
      le 2 l.termLength ++ le 2 (secondsLeft now l.termDeadline) ++ le 1 l.members.length ++ stateArea now l ++ memberEntries l
  front ++ zeros (64 - front.length)

/-! ### The rail, budget and tenant reports (R197) -/

/-- The rail report (type 2) (R118); `pgHigh` is the power-good level as it then reads. During a rise or a slew the set voltage
reported is the one the rail is being taken to. -/
def State.railReport (s : State) (r : RailId) (pgHigh : Bool) : List Byte :=
  let x := s.rail r
  let f := s.faultRecord r
  let o := s.owned r
  let c := s.config r
  le 1 2 ++ le 1 r.val ++ le 1 x.state.code ++ le 1 (flagBit x.enable 0 + flagBit pgHigh 1 + flagBit c.configured 2) ++
    le 2 (msLeft s.now x.deadline) ++ le 2 x.drive.target ++ le 2 x.currentLimit ++ le 2 (handleField x.lease) ++
    le 1 (tenantField o.owner) ++ le 1 (tenantField o.target) ++ le 2 (secondsLeft s.now o.expiry) ++
    le 1 f.count ++ le 1 (faultField f.last) ++ le 1 (s.tierList r).length ++ zeros 1 ++
    le 2 c.floor ++ le 2 c.ceiling ++ le 2 c.currentCeiling ++ le 2 c.rampRate ++ le 2 c.allowance ++ le 2 c.discharge ++
    le 1 c.retryLimit ++ zeros 1 ++ le 2 c.backoffBase ++ zeros 28

/-- The qualify deadline of a feed, if one runs. -/
def Feed.deadline (f : Feed) : Option Nat :=
  match f.state with
  | .qualifying d => some d
  | _ => none

/-- A feed entry of the budget report: 10 bytes. -/
def feedEntry (now : Nat) (f : Feed) : List Byte :=
  le 4 f.capacity ++ le 2 f.qualify ++ le 1 f.state.code ++ zeros 1 ++ le 2 (msLeft now f.deadline)

/-- The budget report (type 3) for a subject tenant (R73). -/
def State.budgetReport (s : State) (t : TenantId) : List Byte :=
  le 1 3 ++ le 1 t.val ++ le 1 s.grantOrder.length ++ le 1 s.queue.length ++ le 4 s.available ++ le 4 s.chargedTotal ++
    le 4 s.committedTotal ++ le 4 s.margin ++ le 4 (s.totalCapacity - s.margin) ++ feedEntry s.now (s.feed 0) ++
    feedEntry s.now (s.feed 1) ++ feedEntry s.now (s.feed 2) ++ le 4 (s.account t).quota ++ le 1 (s.account t).maxClass ++
    le 4 (s.account t).charged ++ zeros 1

/-- An outbound entry's class, for the counts of the tenant report (R176). -/
def OutEntry.isCompletion : OutEntry → Bool
  | .completion _ => true
  | _ => false
def OutEntry.isLeaseMarker : OutEntry → Bool
  | .marker (.lease _) _ => true
  | _ => false
def OutEntry.isRailMarker : OutEntry → Bool
  | .marker (.rail _) _ => true
  | _ => false
def OutEntry.isBudgetMarker : OutEntry → Bool
  | .marker .budget _ => true
  | _ => false

/-- The number of live leases of a tenant (R176). -/
def State.liveLeases (s : State) (t : TenantId) : Nat :=
  (List.finRange 16).countP fun i =>
    match s.lease? i with
    | some l => l.live && l.tenant == t
    | none => false

/-- The number of rails a tenant owns (R176). -/
def State.railsOwned (s : State) (t : TenantId) : Nat :=
  (List.finRange 12).countP fun r => (s.owned r).owner == some t

/-- The descriptor fields of the tenant report, 0 when the tenant is CLOSED (R176, R197). -/
def descriptorFields : Option Descriptor → List Byte
  | some d =>
    le 8 d.subBase.toNat ++ le 2 d.subSize ++ zeros 2 ++ le 8 d.compBase.toNat ++ le 2 d.compSize
  | none => zeros 22

/-- The tenant report (type 4) (R176). -/
def State.tenantReport (s : State) (t : TenantId) : List Byte :=
  let x := s.tenant t
  let enabled := (x.desc.map Descriptor.interrupt).getD false
  le 1 4 ++ le 1 t.val ++ le 1 x.state.code ++
    le 1 (flagBit x.scanPending 0 + flagBit x.stalled 1 + flagBit x.intPending 2 + flagBit enabled 3) ++
    le 2 x.head ++ le 2 x.tail ++ le 1 x.inFlight ++ le 1 (x.outbound.countP OutEntry.isCompletion) ++
    le 1 (x.outbound.countP OutEntry.isLeaseMarker) ++ le 1 (x.outbound.countP OutEntry.isRailMarker) ++
    le 1 (flagBit (x.outbound.any OutEntry.isBudgetMarker) 0) ++ le 1 (s.liveLeases t) ++ le 1 (s.railsOwned t) ++ zeros 1 ++
    descriptorFields x.desc ++ zeros 26

end Sys2Proof.Machine
end

