-- ==== Sys2Proof/Machine/Budget.lean ====
section
/-! DEFINITION. The budget unit: SENSE_LINE_RISE, SENSE_LINE_FALL, QUALIFY_DEADLINE (R55, R56), SET_FEED, SET_MARGIN, SET_QUOTA
(R70 to R72) and QUERY_BUDGET (R73). -/

namespace Sys2Proof.Machine

/-- A budget marker for every tenant; OPEN and BROKEN tenants receive it (R74). -/
def Happening.markBudget (h : Happening) (reason : Reason) : Happening :=
  (List.finRange 4).foldl (fun h t => h.mark t .budget reason) h

/-- After a change of feeds or margin: budget markers if the available budget has changed, a budget rise if it has risen (R56,
R64, R74). -/
def Happening.budgetMoved (h : Happening) (before : Nat) (reason : Reason) : Happening :=
  if h.st.available = before then h
  else if before < h.st.available then (h.markBudget reason).risen
  else h.markBudget reason

/-- Writes a feed's state. -/
def State.setFeedState (s : State) (f : FeedId) (x : FeedState) : State := s.setFeedRecord f { s.feed f with state := x }

/-- SENSE_LINE_RISE (R55): an ABSENT feed begins to qualify. -/
def senseLineRise (f : FeedId) (s : State) : State :=
  match (s.feed f).state with
  | .absent => s.setFeedState f (.qualifying (s.now + (s.feed f).qualify))
  | _ => s

/-- SENSE_LINE_FALL (R55, R67): a QUALIFYING feed is ABSENT again; the loss of a PRESENT feed recomputes the budget, adds the
budget markers, and then runs the shed pass. -/
def senseLineFall (f : FeedId) (s : State) : State :=
  match (s.feed f).state with
  | .absent => s
  | .qualifying _ => s.setFeedState f .absent
  | .present =>
    (((s.begin.map fun s => s.setFeedState f .absent).budgetMoved s.available .feedLost).shedPass).settle

/-- QUALIFY_DEADLINE (R56): a QUALIFYING feed becomes PRESENT. -/
def qualifyDeadline (f : FeedId) (s : State) : State :=
  match (s.feed f).state with
  | .qualifying d =>
    s.atDeadline d ((s.begin.map fun s => s.setFeedState f .present).budgetMoved s.available .feedPresent).settle
  | _ => s

/-- A SET_FEED carried out (R70). -/
def State.setFeedBody (s : State) (c : CtxId) (feed capacity qualify : Nat) : State :=
  if s.configurable = false then s.refuse c .notServing .none
  else
    match numbered 3 feed with
    | none => s.refuse c .badValue .none
    | some f =>
      if 4000000 < capacity then s.refuse c .badValue .none
      else if qualify < 10 ∨ 5000 < qualify then s.refuse c .badValue .none
      else
        let s1 := s.setFeedRecord f { s.feed f with capacity := capacity, qualify := qualify }
        if (s.feed f).state = .present ∧ capacity < (s.feed f).capacity ∧ s1.available < s.chargedTotal then
          s.refuse c .budgetInUse .none
        else ((s1.begin.budgetMoved s.available .reconfigured).reply c .ok).settle

/-- SET_FEED (R70). -/
def setFeed (s : State) : State :=
  match s.takenCommand admin with
  | some (c, .setFeed feed capacity qualify) => s.setFeedBody c feed capacity qualify
  | _ => s

/-- A SET_MARGIN carried out (R71). -/
def State.setMarginBody (s : State) (c : CtxId) (margin : Nat) : State :=
  if s.configurable = false then s.refuse c .notServing .none
  else if 1000000 < margin then s.refuse c .badValue .none
  else
    let s1 : State := { s with margin := margin }
    if s.margin < margin ∧ s1.available < s.chargedTotal then s.refuse c .budgetInUse .none
    else ((s1.begin.budgetMoved s.available .reconfigured).reply c .ok).settle

/-- SET_MARGIN (R71). -/
def setMargin (s : State) : State :=
  match s.takenCommand admin with
  | some (c, .setMargin margin) => s.setMarginBody c margin
  | _ => s

/-- A SET_QUOTA carried out (R72): a raised quota is a budget rise (R64). -/
def State.setQuotaBody (s : State) (c : CtxId) (tenant maxClass quota : Nat) : State :=
  if s.configurable = false then s.refuse c .notServing .none
  else
    match numbered 4 tenant with
    | none => s.refuse c .badValue .none
    | some t =>
      if 12000000 < quota then s.refuse c .badValue .none
      else if 3 < maxClass then s.refuse c .badValue .none
      else if quota < (s.account t).charged then s.refuse c .quotaInUse .none
      else
        let h := s.begin.map fun s => s.setAccount t { s.account t with quota := quota, maxClass := maxClass }
        ((if (s.account t).quota < quota then h.risen else h).reply c .ok).settle

/-- SET_QUOTA (R72). -/
def setQuota (s : State) : State :=
  match s.takenCommand admin with
  | some (c, .setQuota tenant maxClass quota) => s.setQuotaBody c tenant maxClass quota
  | _ => s

/-- A QUERY_BUDGET carried out (R73). -/
def State.queryBudgetBody (s : State) (t : TenantId) (c : CtxId) (subject buffer : Nat) : State :=
  match numbered 4 subject with
  | none => s.refuse c .badValue .none
  | some n =>
    if t ≠ admin ∧ n ≠ t then s.refuse c .notOwner .none
    else s.beginReport c buffer (s.budgetReport n)

/-- QUERY_BUDGET (R73). -/
def queryBudget (t : TenantId) (s : State) : State :=
  match s.takenCommand t with
  | some (c, .queryBudget subject buffer) => s.queryBudgetBody t c subject buffer
  | _ => s

/-! ### The meanings of the rows -/

/-- The row SET_FEED (R70): it always has a next state. -/
def execSetFeed (s : State) : Host.Outcome State Fault Refusal :=
  .next (setFeed s)

/-- The row SET_MARGIN (R71): it always has a next state. -/
def execSetMargin (s : State) : Host.Outcome State Fault Refusal :=
  .next (setMargin s)

/-- The row SET_QUOTA (R72): it always has a next state. -/
def execSetQuota (s : State) : Host.Outcome State Fault Refusal :=
  .next (setQuota s)

/-- The row QUERY_BUDGET (R73): it always has a next state. -/
def execQueryBudget (t : TenantId) (s : State) : Host.Outcome State Fault Refusal :=
  .next (queryBudget t s)

/-- The row SENSE_LINE_RISE (R55): it always has a next state. -/
def execSenseLineRise (f : FeedId) (s : State) : Host.Outcome State Fault Refusal :=
  .next (senseLineRise f s)

/-- The row SENSE_LINE_FALL (R55): it always has a next state. -/
def execSenseLineFall (f : FeedId) (s : State) : Host.Outcome State Fault Refusal :=
  .next (senseLineFall f s)

/-- The row QUALIFY_DEADLINE (R56): it always has a next state. -/
def execQualifyDeadline (f : FeedId) (s : State) : Host.Outcome State Fault Refusal :=
  .next (qualifyDeadline f s)

end Sys2Proof.Machine
end

