-- ==== Sys2Proof/Machine/Leases.lean ====
section
/-! DEFINITION. The lease engine's commands and timers: RELEASE, REVOKE, RENEW, QUERY_LEASE, LAPSE, and the deferred queue's
WAIT_DEADLINE and SET_QUEUE_POLICY. -/

namespace Sys2Proof.Machine

/-- The effect of a RELEASE or REVOKE on a lease found live, by its state, and its completion (R22, R23). -/
def State.giveUp (s : State) (c : CtxId) (i : SlotId) (l : Lease) (cause : StopCause) : State :=
  match l.state with
  | .stopping _ => s.refuse c .ok .alreadyStopping
  | _ => ((s.begin.stopCause i l cause).reply c .ok).settle

/-- A RELEASE carried out (R22). -/
def State.releaseBody (s : State) (t : TenantId) (c : CtxId) (handle : Nat) : State :=
  match s.liveLease (handleOfWord handle) with
  | none => s.refuse c .noSuchLease .none
  | some l =>
    if l.tenant ≠ t then s.refuse c .notOwner .none
    else s.giveUp c (handleOfWord handle).slot l .released

/-- RELEASE (R22). -/
def release (t : TenantId) (s : State) : State :=
  match s.takenCommand t with
  | some (c, .release handle) => s.releaseBody t c handle
  | _ => s

/-- A REVOKE carried out (R23). -/
def State.revokeBody (s : State) (c : CtxId) (handle : Nat) : State :=
  match s.liveLease (handleOfWord handle) with
  | none => s.refuse c .noSuchLease .none
  | some l => s.giveUp c (handleOfWord handle).slot l .revoked

/-- REVOKE (R23). -/
def revoke (s : State) : State :=
  match s.takenCommand admin with
  | some (c, .revoke handle) => s.revokeBody c handle
  | _ => s

/-- The term a RENEW sets: none for 0 (R20). -/
def renewedTerm (now term : Nat) : Option Term :=
  if term = 0 then none else some { length := term, deadline := now + 1000 * term }

/-- A RENEW carried out (R20). -/
def State.renewBody (s : State) (t : TenantId) (c : CtxId) (handle term : Nat) : State :=
  match s.liveLease (handleOfWord handle) with
  | none => s.refuse c .noSuchLease .none
  | some l =>
    if l.tenant ≠ t then s.refuse c .notOwner .none
    else if l.stop?.isSome then s.refuse c .leaseBusy .none
    else ((s.begin.putLease (handleOfWord handle).slot { l with term := renewedTerm s.now term }).reply c .ok).settle

/-- RENEW (R20). -/
def renew (t : TenantId) (s : State) : State :=
  match s.takenCommand t with
  | some (c, .renew handle term) => s.renewBody t c handle term
  | _ => s

/-- A QUERY_LEASE carried out (R25, R26): an ENDED record still held is reported too. -/
def State.queryLeaseBody (s : State) (t : TenantId) (c : CtxId) (handle buffer : Nat) : State :=
  match s.resolve (handleOfWord handle) with
  | none => s.refuse c .noSuchLease .none
  | some l =>
    if l.tenant ≠ t ∧ t ≠ admin then s.refuse c .notOwner .none
    else s.beginReport c buffer (leaseReport s.now (handleOfWord handle) l)

/-- QUERY_LEASE (R25). -/
def queryLease (t : TenantId) (s : State) : State :=
  match s.takenCommand t with
  | some (c, .queryLease handle buffer) => s.queryLeaseBody t c handle buffer
  | _ => s

/-- LAPSE (R21): the term deadline of a live lease is reached. In STOPPING it is not taken, and the deadline stays; where a RENEW has
moved the deadline past the present, or removed it, the lapse does not happen. -/
def lapse (h : Handle) (s : State) : State :=
  match s.liveLease h with
  | some l =>
    match l.term with
    | some term => s.atDeadline term.deadline (s.begin.stopCause h.slot l .lapsed).settle
    | none => s
  | none => s

/-- The wait deadline of the CLAIM entry for a handle (R76, R87). -/
def State.waitDeadlineOf (s : State) (h : Handle) : Option Nat :=
  (s.queue.find? fun e => decide (e.handle = h)).bind fun e =>
    match e.kind with
    | .claim d _ => some d
    | .restore => none

/-- WAIT_DEADLINE (R87): the entry is removed and the WAITING lease ends WAIT_EXPIRED. -/
def waitDeadline (h : Handle) (s : State) : State :=
  match s.waitDeadlineOf h, s.liveLease h with
  | some d, some l =>
    if l.state = .waiting then s.atDeadline d (s.begin.endLease h.slot l .waitExpired).settle else s
  | _, _ => s

/-- A SET_QUEUE_POLICY carried out (R90). -/
def State.setQueuePolicyBody (s : State) (c : CtxId) (passLimit defaultWait : Nat) : State :=
  match s.service with
  | .configuring | .serving =>
    if 15 < passLimit then s.refuse c .badValue .none
    else if defaultWait < 1 ∨ 600 < defaultWait then s.refuse c .badValue .none
    else ((s.begin.map fun s => { s with passLimit := passLimit, defaultWait := defaultWait }).reply c .ok).settle
  | _ => s.refuse c .notServing .none

/-- SET_QUEUE_POLICY (R90). -/
def setQueuePolicy (s : State) : State :=
  match s.takenCommand admin with
  | some (c, .setQueuePolicy passLimit defaultWait) => s.setQueuePolicyBody c passLimit defaultWait
  | _ => s

/-! ### The meanings of the rows -/

/-- The row RELEASE (R22): it always has a next state. -/
def execRelease (t : TenantId) (s : State) : Host.Outcome State Fault Refusal :=
  .next (release t s)

/-- The row REVOKE (R23): it always has a next state. -/
def execRevoke (s : State) : Host.Outcome State Fault Refusal :=
  .next (revoke s)

/-- The row RENEW (R20): it always has a next state. -/
def execRenew (t : TenantId) (s : State) : Host.Outcome State Fault Refusal :=
  .next (renew t s)

/-- The row QUERY_LEASE (R25): it always has a next state. -/
def execQueryLease (t : TenantId) (s : State) : Host.Outcome State Fault Refusal :=
  .next (queryLease t s)

/-- The row LAPSE (R21): it always has a next state. -/
def execLapse (h : Handle) (s : State) : Host.Outcome State Fault Refusal :=
  .next (lapse h s)

/-- The row WAIT_DEADLINE (R87): it always has a next state. -/
def execWaitDeadline (h : Handle) (s : State) : Host.Outcome State Fault Refusal :=
  .next (waitDeadline h s)

/-- The row SET_QUEUE_POLICY (R90): it always has a next state. -/
def execSetQueuePolicy (s : State) : Host.Outcome State Fault Refusal :=
  .next (setQueuePolicy s)

end Sys2Proof.Machine
end

