-- ==== Sys2Proof/Machine/Ownership.lean ====
section
/-! DEFINITION. The ownership unit: ASSIGN_RAIL (R139), OFFER_RAIL (R142), WITHDRAW_OFFER (R143), ACCEPT_RAIL (R144 to R146) and
OFFER_EXPIRY (R148). -/

namespace Sys2Proof.Machine

/-! ### Owners and offers -/

/-- Removes the pending offer of a rail (R139, R143, R145, R146, R148). -/
def State.dropOffer (s : State) (r : RailId) : State := s.setOwned r { s.owned r with offer := none }

/-- Records an offer on a rail (R142). -/
def State.putOffer (s : State) (r : RailId) (o : Offer) : State := s.setOwned r { s.owned r with offer := some o }

/-- Makes a tenant, or NONE, the owner of a rail. -/
def State.setOwner (s : State) (r : RailId) (owner : Option TenantId) : State := s.setOwned r { s.owned r with owner := owner }

/-- A rail marker for an owner, or none for NONE (R152). -/
def Happening.markTenant? (h : Happening) (t : Option TenantId) (r : RailId) (reason : Reason) : Happening :=
  match t with
  | some t => h.mark t (.rail r) reason
  | none => h

/-- A rail marker for both tenants of an offer (R139, R148). -/
def Happening.markOffer (h : Happening) (r : RailId) (o : Offer) (reason : Reason) : Happening :=
  (h.mark o.offerer (.rail r) reason).mark o.target (.rail r) reason

/-! ### ASSIGN_RAIL -/

/-- Step 1 of an accepted ASSIGN_RAIL (R139): the removal of an offer that stands on the rail. -/
def Happening.cancelOffer (h : Happening) (r : RailId) : Happening :=
  match (h.st.owned r).offer with
  | some o => (h.map fun s => s.dropOffer r).markOffer r o .offerWithdrawn
  | none => h

/-- Step 2 of an accepted ASSIGN_RAIL (R139): the new owner, and one marker for each of the two tenants. -/
def Happening.assign (h : Happening) (r : RailId) (owner : Option TenantId) : Happening :=
  let former := (h.st.owned r).owner
  let h1 := (h.map fun s => s.setOwner r owner).markTenant? former r .assigned
  if former = owner then h1 else h1.markTenant? owner r .assigned

/-- An ASSIGN_RAIL carried out (R139). -/
def State.assignRailBody (s : State) (c : CtxId) (rail owner : Nat) : State :=
  if s.configurable = false then s.refuse c .notServing .none
  else
    match numbered 12 rail, ownerOf owner with
    | none, _ => s.refuse c .badValue .none
    | some _, none => s.refuse c .badValue .none
    | some r, some new =>
      if (s.rail r).lease.isSome then s.refuse c .railInUse .none
      else (((s.begin.cancelOffer r).assign r new).reply c .ok).settle

/-- ASSIGN_RAIL (R139). -/
def assignRail (s : State) : State :=
  match s.takenCommand admin with
  | some (c, .assignRail rail owner) => s.assignRailBody c rail owner
  | _ => s

/-! ### OFFER_RAIL and WITHDRAW_OFFER -/

/-- The rail is a member of a live lease with two or more members (R142 check 7, R144 check 4). -/
def State.inBundle (s : State) (r : RailId) : Bool :=
  match s.leaseOfRail r with
  | some (_, l) => decide (2 ≤ l.members.length)
  | none => false

/-- Checks 3 to 8 of an OFFER_RAIL for a rail (R142): the target, or the status of the first failure. -/
def State.judgeOffer (s : State) (t : TenantId) (r : RailId) (target lifetime : Nat) : Except Status TenantId :=
  if (s.owned r).owner ≠ some t then .error .notOwner
  else
    match numbered 4 target with
    | none => .error .badValue
    | some n =>
      if n = t then .error .badValue
      else if lifetime < 1 ∨ 60 < lifetime then .error .badValue
      else if (s.owned r).offer.isSome then .error .offerPending
      else if s.inBundle r then .error .inBundle
      else if (s.tenant n).state ≠ .isOpen then .error .tenantState
      else .ok n

/-- An OFFER_RAIL carried out (R141, R142). -/
def State.offerRailBody (s : State) (t : TenantId) (c : CtxId) (rail target lifetime : Nat) : State :=
  if s.configurable = false then s.refuse c .notServing .none
  else
    match numbered 12 rail with
    | none => s.refuse c .badValue .none
    | some r =>
      match s.judgeOffer t r target lifetime with
      | .error status => s.refuse c status .none
      | .ok n =>
        let h := s.begin.map fun s => s.putOffer r { offerer := t, target := n, deadline := s.now + 1000 * lifetime }
        ((h.mark n (.rail r) .offered).reply c .ok).settle

/-- OFFER_RAIL (R142). -/
def offerRail (t : TenantId) (s : State) : State :=
  match s.takenCommand t with
  | some (c, .offerRail rail target lifetime) => s.offerRailBody t c rail target lifetime
  | _ => s

/-- A WITHDRAW_OFFER carried out (R143). -/
def State.withdrawOfferBody (s : State) (t : TenantId) (c : CtxId) (rail : Nat) : State :=
  if s.configurable = false then s.refuse c .notServing .none
  else
    match numbered 12 rail with
    | none => s.refuse c .badValue .none
    | some r =>
      match (s.owned r).offer with
      | some o =>
        if o.offerer = t then
          (((s.begin.map fun s => s.dropOffer r).mark o.target (.rail r) .offerWithdrawn).reply c .ok).settle
        else s.refuse c .noOffer .none
      | none => s.refuse c .noOffer .none

/-- WITHDRAW_OFFER (R143). -/
def withdrawOffer (t : TenantId) (s : State) : State :=
  match s.takenCommand t with
  | some (c, .withdrawOffer rail) => s.withdrawOfferBody t c rail
  | _ => s

/-! ### ACCEPT_RAIL -/

/-- A lease in one of the three states that may be transferred (R144 check 5). -/
def Lease.settled (l : Lease) : Bool :=
  match l.state with
  | .active | .waiting | .suspended => true
  | _ => false

/-- The offer on a rail made to a tenant (R144 check 3). -/
def State.offerTo (s : State) (t : TenantId) (r : RailId) : Option Offer :=
  (s.owned r).offer.filter fun o => decide (o.target = t)

/-- Checks 4 to 6 of an ACCEPT_RAIL on the lease that holds the rail (R144): the status of the first failure. -/
def State.acceptFault (s : State) (t : TenantId) (l : Lease) : Option Status :=
  if l.members.length ≠ 1 then some .inBundle
  else if l.settled = false then some .leaseBusy
  else if l.state = .active ∧ (s.account t).quota < (s.account t).charged + l.charge then some .quota
  else none

/-- The rail moves to the tenant that accepts its offer (R145, R146 steps 1 and 2). -/
def State.moveRail (s : State) (r : RailId) (t : TenantId) : State := (s.dropOffer r).setOwner r (some t)

/-- The lease moves with its rail (R24, R146 steps 3 to 5): a marker for each tenant, and the charge of an ACTIVE lease. -/
def Happening.transfer (h : Happening) (i : SlotId) (l : Lease) (t : TenantId) : Happening :=
  let subject := Subject.lease (h.st.handleOf i)
  let h1 := ((h.putLease i { l with tenant := t, count := l.count + 1 }).mark l.tenant subject .transferred).mark t subject
    .transferred
  if l.state = .active then (h1.map fun s => (s.subCharged l.tenant l.charge).addCharged t l.charge).risen else h1

/-- An ACCEPT_RAIL carried out (R144 to R146). -/
def State.acceptRailBody (s : State) (t : TenantId) (c : CtxId) (rail : Nat) : State :=
  if s.configurable = false then s.refuse c .notServing .none
  else
    match numbered 12 rail with
    | none => s.refuse c .badValue .none
    | some r =>
      match s.offerTo t r with
      | none => s.refuse c .noOffer .none
      | some o =>
        let moved := s.begin.map fun s => s.moveRail r t
        let accepted := fun (h : Happening) => (h.mark o.offerer (.rail r) .accepted).mark t (.rail r) .accepted
        match s.leaseOfRail r with
        | none => ((accepted moved).reply c .ok).settle
        | some (i, l) =>
          match s.acceptFault t l with
          | some status => s.refuse c status .none
          | none => ((accepted (moved.transfer i l t)).answer c .ok .none (some (s.handleOf i)) l.charge).settle

/-- ACCEPT_RAIL (R144). -/
def acceptRail (t : TenantId) (s : State) : State :=
  match s.takenCommand t with
  | some (c, .acceptRail rail) => s.acceptRailBody t c rail
  | _ => s

/-! ### Expiry -/

/-- OFFER_EXPIRY (R148): the offer is removed, with a marker for each of its tenants. -/
def offerExpiry (r : RailId) (s : State) : State :=
  match (s.owned r).offer with
  | some o => s.atDeadline o.deadline ((s.begin.map fun s => s.dropOffer r).markOffer r o .offerExpired).settle
  | none => s

/-! ### The meanings of the rows -/

/-- The row ASSIGN_RAIL (R139): it always has a next state. -/
def execAssignRail (s : State) : Host.Outcome State Fault Refusal :=
  .next (assignRail s)

/-- The row OFFER_RAIL (R142): it always has a next state. -/
def execOfferRail (t : TenantId) (s : State) : Host.Outcome State Fault Refusal :=
  .next (offerRail t s)

/-- The row ACCEPT_RAIL (R144): it always has a next state. -/
def execAcceptRail (t : TenantId) (s : State) : Host.Outcome State Fault Refusal :=
  .next (acceptRail t s)

/-- The row WITHDRAW_OFFER (R143): it always has a next state. -/
def execWithdrawOffer (t : TenantId) (s : State) : Host.Outcome State Fault Refusal :=
  .next (withdrawOffer t s)

/-- The row OFFER_EXPIRY (R148): it always has a next state. -/
def execOfferExpiry (r : RailId) (s : State) : Host.Outcome State Fault Refusal :=
  .next (offerExpiry r s)

end Sys2Proof.Machine
end

