-- ==== Sys2Proof/Machine/Rails.lean ====
section
/-! DEFINITION. The rail sequencer and the fault unit: SET_RAIL and QUERY_RAIL (R94, R118), the stage events and the rail deadlines
(R99 to R102, R106, R107, R110, R120 to R129), BACKOFF_DEADLINE (R132) and CLEAR_LOCKOUT (R134). -/

namespace Sys2Proof.Machine

/-! ### Configuration -/

/-- Every other field of a configuration lies in its range (R93, R94 check 5). -/
def RailConfig.inRange (c : RailConfig) : Bool :=
  decide (500 ≤ c.floor ∧ c.floor ≤ c.ceiling ∧ c.ceiling ≤ 48000 ∧ c.floor % 10 = 0 ∧ c.ceiling % 10 = 0 ∧
    1 ≤ c.currentCeiling ∧ c.currentCeiling ≤ 40000 ∧ 1 ≤ c.rampRate ∧ c.rampRate ≤ 1000 ∧ 1 ≤ c.allowance ∧
    c.allowance ≤ 1000 ∧ 1 ≤ c.discharge ∧ c.discharge ≤ 2000 ∧ c.retryLimit ≤ 7 ∧ 10 ≤ c.backoffBase ∧
    c.backoffBase ≤ 10000)

/-- Every tier of a list lies within a configuration's limits (R32). -/
def tiersWithin (tiers : List Tier) (c : RailConfig) : Bool :=
  tiers.all fun t => t.within c.floor c.ceiling c.currentCeiling

/-- The rail is FALLING. -/
def Rail.isFalling (r : Rail) : Bool :=
  match r.state with
  | .falling _ => true
  | _ => false

/-- A SET_RAIL carried out (R94, R95). With the configured field clear, the record keeps its other values. -/
def State.setRailBody (s : State) (c : CtxId) (a : SetRailArgs) : State :=
  if s.configurable = false then s.refuse c .notServing .none
  else
    match numbered 12 a.rail with
    | none => s.refuse c .badValue .none
    | some r =>
      if (s.rail r).lease.isSome then s.refuse c .railInUse .none
      else if (s.rail r).isFalling then s.refuse c .railBusy .none
      else if a.config.configured = false then
        ((s.begin.map fun s => s.setConfig r { s.config r with configured := false }).reply c .ok).settle
      else if a.config.inRange = false then s.refuse c .badValue .none
      else if tiersWithin (s.tierList r) a.config = false then s.refuse c .badValue .none
      else ((s.begin.map fun s => s.setConfig r a.config).reply c .ok).settle

/-- SET_RAIL (R94). -/
def setRail (s : State) : State :=
  match s.takenCommand admin with
  | some (c, .setRail a) => s.setRailBody c a
  | _ => s

/-- A QUERY_RAIL carried out (R118); `pgHigh` is the power-good level as it then reads. -/
def State.queryRailBody (s : State) (c : CtxId) (rail buffer : Nat) (pgHigh : Bool) : State :=
  match numbered 12 rail with
  | none => s.refuse c .badValue .none
  | some r => s.beginReport c buffer (s.railReport r pgHigh)

/-- QUERY_RAIL (R118). -/
def queryRail (t : TenantId) (pgHigh : Bool) (s : State) : State :=
  match s.takenCommand t with
  | some (c, .queryRail rail buffer) => s.queryRailBody c rail buffer pgHigh
  | _ => s

/-! ### The start sequence -/

/-- The rail of a rising member is ON: its step delay starts, or, at 0 ms, ends at once (R106). -/
def Happening.memberOn (h : Happening) (r : RailId) : Happening :=
  match h.st.leaseOfRail r with
  | some (i, l) =>
    match l.state with
    | .starting (.rising k) =>
      match l.members[k]? with
      | some m =>
        if m.rail = r then
          if m.stepDelay = 0 then h.stepOver i l k
          else h.putLease i { l with state := .starting (.delay k (h.st.now + m.stepDelay)) }
        else h
      | none => h
    | _ => h
  | none => h

/-- PG_RISE (R99, R100, R106): a RISING rail is ON. -/
def pgRise (r : RailId) (s : State) : State :=
  match (s.rail r).state with
  | .rising _ => ((s.begin.map fun s => s.enterOn r).memberOn r).settle
  | _ => s

/-- STEP_DELAY_END (R107): the step delay of a STARTING lease's member ends. -/
def stepDelayEnd (h : Handle) (s : State) : State :=
  match s.liveLease h with
  | some l =>
    match l.state with
    | .starting (.delay k d) => s.atDeadline d (s.begin.stepOver h.slot l k).settle
    | _ => s
  | none => s

/-! ### Faults -/

/-- PG_FALL (R99): an UNDERVOLTAGE fault at an ON or SLEWING rail. -/
def pgFall (r : RailId) (s : State) : State :=
  match (s.rail r).state with
  | .on | .slewing _ => (s.begin.fault r .undervoltage).settle
  | _ => s

/-- The fault kind of a stage fault event (R97, R120). -/
def stageKind : StageFault → FaultKind
  | .overcurrent => .overcurrent
  | .overtemperature => .overtemperature

/-- STAGE_FAULT (R99): passed to the fault unit at a powered or FALLING rail. -/
def stageFault (r : RailId) (kind : StageFault) (s : State) : State :=
  match (s.rail r).state with
  | .off | .locked => s
  | _ => (s.begin.fault r (stageKind kind)).settle

/-- RAMP_DEADLINE (R99, R100): a RAMP_TIMEOUT fault at a RISING rail. -/
def rampDeadline (r : RailId) (s : State) : State :=
  match (s.rail r).state with
  | .rising d => s.atDeadline d (s.begin.fault r .rampTimeout).settle
  | _ => s

/-- A member's slew has ended (R110): when it was the last of an ADJUSTING lease, the adjustment settles (R15, R52) and the lease is
ACTIVE. -/
def Happening.slewEnded (h : Happening) (r : RailId) : Happening :=
  match h.st.leaseOfRail r with
  | some (i, l) =>
    match l.state with
    | .adjusting a =>
      let left := a.slewing.filter fun k => decide ((l.members[k]?).map Member.rail ≠ some r)
      if left = [] then
        (h.changeLease i
          { l with state := .active, members := applyChanges a.changes l.members, charge := a.newCharge } .active).creditFall
          l.tenant l.charge a.newCharge
      else h.putLease i { l with state := .adjusting { a with slewing := left } }
    | _ => h
  | none => h

/-- SLEW_DEADLINE (R99, R101, R110): at a SLEWING rail the power-good level is read. -/
def slewDeadline (r : RailId) (pgHigh : Bool) (s : State) : State :=
  match (s.rail r).state with
  | .slewing d =>
    s.atDeadline d
      (if pgHigh then ((s.begin.map fun s => s.enterOn r).slewEnded r).settle else (s.begin.fault r .slewTimeout).settle)
  | _ => s

/-! ### The bottom of a fall -/

/-- A rail marker for the rail's owner (R127, R134, R152). -/
def Happening.markOwner (h : Happening) (r : RailId) (reason : Reason) : Happening :=
  match (h.st.owned r).owner with
  | some t => h.mark t (.rail r) reason
  | none => h

/-- A FALLING rail comes down, OFF or LOCKED: the LOCKED marker, then the stop sequence of its lease (R102, R127, R128). -/
def Happening.comeDown (h : Happening) (r : RailId) (locked : Bool) : Happening :=
  let h1 := h.map fun s => s.enterDown r locked
  (if locked then h1.markOwner r .locked else h1).railDown r

/-- LOW_REACHED (R99, R102, R127): the lock decision makes a FALLING rail OFF or LOCKED. -/
def lowReached (r : RailId) (s : State) : State :=
  match (s.rail r).state with
  | .falling _ => (s.begin.comeDown r (s.locks r)).settle
  | _ => s

/-- DISCHARGE_DEADLINE (R102, R128): counted as a DISCHARGE_TIMEOUT, and the rail is LOCKED. -/
def dischargeDeadline (r : RailId) (s : State) : State :=
  match (s.rail r).state with
  | .falling d =>
    let h := (s.begin.map fun s => s.countFault r .dischargeTimeout).faultLease r .dischargeTimeout
    s.atDeadline d (h.comeDown r true).settle
  | _ => s

/-- STABLE_DEADLINE (R129): the rail's fault count is cleared; its last fault kind is kept, and the deadline
that has acted is removed (log entry 17). -/
def stableDeadline (r : RailId) (s : State) : State :=
  match (s.faultRecord r).stable with
  | some d => s.atDeadline d (s.setFaultRecord r { s.faultRecord r with count := 0, stable := none })
  | none => s

/-! ### Retry and lockout -/

/-- BACKOFF_DEADLINE (R132): a RETRY_WAIT lease restarts from member 0. -/
def backoffDeadline (h : Handle) (s : State) : State :=
  match s.liveLease h with
  | some l =>
    match l.state with
    | .retryWait d => s.atDeadline d (s.begin.restart h.slot l).settle
    | _ => s
  | none => s

/-- A CLEAR_LOCKOUT carried out (R134). -/
def State.clearLockoutBody (s : State) (c : CtxId) (rail : Nat) : State :=
  if s.configurable = false then s.refuse c .notServing .none
  else
    match numbered 12 rail with
    | none => s.refuse c .badValue .none
    | some r =>
      if (s.rail r).state ≠ .locked then s.refuse c .notLocked .none
      else if (s.rail r).lease.isSome then s.refuse c .railInUse .none
      else
        let h := s.begin.map fun s =>
          (s.enterDown r false).setFaultRecord r { s.faultRecord r with count := 0 }
        ((h.markOwner r .unlocked).reply c .ok).settle

/-- CLEAR_LOCKOUT (R134). -/
def clearLockout (s : State) : State :=
  match s.takenCommand admin with
  | some (c, .clearLockout rail) => s.clearLockoutBody c rail
  | _ => s

/-! ### The meanings of the rows -/

/-- The row SET_RAIL (R94): it always has a next state. -/
def execSetRail (s : State) : Host.Outcome State Fault Refusal :=
  .next (setRail s)

/-- The row QUERY_RAIL (R118): it always has a next state. -/
def execQueryRail (t : TenantId) (pgHigh : Bool) (s : State) : Host.Outcome State Fault Refusal :=
  .next (queryRail t pgHigh s)

/-- The row CLEAR_LOCKOUT (R134): it always has a next state. -/
def execClearLockout (s : State) : Host.Outcome State Fault Refusal :=
  .next (clearLockout s)

/-- The row PG_RISE (R99): it always has a next state. -/
def execPgRise (r : RailId) (s : State) : Host.Outcome State Fault Refusal :=
  .next (pgRise r s)

/-- The row PG_FALL (R99): it always has a next state. -/
def execPgFall (r : RailId) (s : State) : Host.Outcome State Fault Refusal :=
  .next (pgFall r s)

/-- The row LOW_REACHED (R102): it always has a next state. -/
def execLowReached (r : RailId) (s : State) : Host.Outcome State Fault Refusal :=
  .next (lowReached r s)

/-- The row STAGE_FAULT (R99): it always has a next state. -/
def execStageFault (r : RailId) (kind : StageFault) (s : State) : Host.Outcome State Fault Refusal :=
  .next (stageFault r kind s)

/-- The row RAMP_DEADLINE (R100): it always has a next state. -/
def execRampDeadline (r : RailId) (s : State) : Host.Outcome State Fault Refusal :=
  .next (rampDeadline r s)

/-- The row SLEW_DEADLINE (R101): it always has a next state. -/
def execSlewDeadline (r : RailId) (pgHigh : Bool) (s : State) : Host.Outcome State Fault Refusal :=
  .next (slewDeadline r pgHigh s)

/-- The row DISCHARGE_DEADLINE (R128): it always has a next state. -/
def execDischargeDeadline (r : RailId) (s : State) : Host.Outcome State Fault Refusal :=
  .next (dischargeDeadline r s)

/-- The row STEP_DELAY_END (R107): it always has a next state. -/
def execStepDelayEnd (h : Handle) (s : State) : Host.Outcome State Fault Refusal :=
  .next (stepDelayEnd h s)

/-- The row BACKOFF_DEADLINE (R132): it always has a next state. -/
def execBackoffDeadline (h : Handle) (s : State) : Host.Outcome State Fault Refusal :=
  .next (backoffDeadline h s)

/-- The row STABLE_DEADLINE (R129): it always has a next state. -/
def execStableDeadline (r : RailId) (s : State) : Host.Outcome State Fault Refusal :=
  .next (stableDeadline r s)

end Sys2Proof.Machine
end

