-- ==== Sys2Proof/Machine/Rings.lean ====
section
/-! DEFINITION. The ring interface unit: OPEN_TENANT, CLOSE_TENANT and QUERY_TENANT (R157, R158, R176), TENANT_SIGNAL writes (R160,
R175), intake (R161, R164, R167), the writer (R172, R173), and the ends of report writes and descriptor reads (R168, R156). -/

namespace Sys2Proof.Machine

/-! ### Ring addresses -/

/-- An index advanced by 1, wrapping at the ring size (R161, R172). -/
def nextIndex (size index : Nat) : Nat := if index + 1 < size then index + 1 else 0

/-- The address of the submission slot at the head (R161). -/
def Tenant.headAddr (x : Tenant) : BitVec 64 :=
  match x.desc with
  | some d => d.subBase + BitVec.ofNat 64 (64 * x.head)
  | none => 0

/-- The address of the completion slot at the tail (R172). -/
def Tenant.tailAddr (x : Tenant) : BitVec 64 :=
  match x.desc with
  | some d => d.compBase + BitVec.ofNat 64 (16 * x.tail)
  | none => 0

/-- The head index after a slot has been returned (R161). -/
def Tenant.nextHead (x : Tenant) : Nat :=
  match x.desc with
  | some d => nextIndex d.subSize x.head
  | none => x.head

/-- The tail index after a record has been written (R172). -/
def Tenant.nextTail (x : Tenant) : Nat :=
  match x.desc with
  | some d => nextIndex d.compSize x.tail
  | none => x.tail

/-- The descriptor copy enables interrupts (R174). -/
def Tenant.interrupts (x : Tenant) : Bool :=
  match x.desc with
  | some d => d.interrupt
  | none => false

/-! ### BROKEN (R162) -/

/-- An access whose good result is ignored once its tenant is BROKEN: a head read, a tail read, a recheck read. -/
def Fate.outdated : Fate → Fate
  | .live => .stale
  | .stale => .stale
  | .dropped => .dropped

/-- The writer's access at a ring error: reads go stale; a record write keeps its effects. -/
def WriterAccess.outdated : WriterAccess → WriterAccess
  | .tailRead addr fate => .tailRead addr fate.outdated
  | .recheckRead addr fate => .recheckRead addr fate.outdated
  | .recordWrite addr record ctx fate => .recordWrite addr record ctx fate

/-- The stage of a context at a ring error: a head read goes stale; a fill-byte write keeps its effects. -/
def Stage.outdated : Stage → Stage
  | .headRead addr notified fate => .headRead addr notified fate.outdated
  | s => s

/-- Applies a change of stage to every context a tenant holds. -/
def State.mapStages (s : State) (t : TenantId) (f : Stage → Stage) : State :=
  { s with pool := s.pool.map fun x? => x?.map fun x => if x.tenant = t then { x with stage := f x.stage } else x }

/-- A ring error at a tenant (R162): BROKEN, with stalled cleared and its deadline cancelled; the rest is kept. -/
def State.breakTenant (s : State) (t : TenantId) : State :=
  let x := s.tenant t
  (s.setTenant t
    { x with state := .broken, stalled := false, recheck := none, writer := x.writer.map WriterAccess.outdated }).mapStages t
    Stage.outdated

/-! ### QUERY_TENANT -/

/-- A QUERY_TENANT carried out (R176). -/
def State.queryTenantBody (s : State) (t : TenantId) (c : CtxId) (subject buffer : Nat) : State :=
  match numbered 4 subject with
  | none => s.refuse c .badValue .none
  | some n =>
    if t ≠ admin ∧ n ≠ t then s.refuse c .notOwner .none
    else s.beginReport c buffer (s.tenantReport n)

/-- QUERY_TENANT (R176). -/
def queryTenant (t : TenantId) (s : State) : State :=
  match s.takenCommand t with
  | some (c, .queryTenant subject buffer) => s.queryTenantBody t c subject buffer
  | _ => s

/-! ### OPEN_TENANT -/

/-- The service is in one of the three states in which tenants are opened and closed (R157, R158). -/
def State.openable (s : State) : Bool :=
  match s.service with
  | .idle => false
  | _ => true

/-- The address of a tenant's descriptor (R155, R182). -/
def State.descriptorAddr (s : State) (n : TenantId) : BitVec 64 := s.descriptorBase + BitVec.ofNat 64 (32 * n.val)

/-- An OPEN_TENANT carried out (R157 checks 1 to 4): its descriptor read begins. DESIGN CHOICE, unsafe (log entry 30): it begins
beside a control read too, where an ADMIN_REOPEN was accepted before the OPEN_TENANT was taken (R156, R162, R185). -/
def State.openTenantBody (s : State) (c : CtxId) (tenant : Nat) : State :=
  if s.openable = false then s.refuse c .notServing .none
  else
    match numbered 4 tenant with
    | none => s.refuse c .badValue .none
    | some n =>
      if n = admin then s.refuse c .adminTenant .none
      else if (s.tenant n).state ≠ .closed then s.refuse c .tenantState .none
      else s.setStage c (.openRead n (s.descriptorAddr n))

/-- OPEN_TENANT (R157). -/
def openTenant (s : State) : State :=
  match s.takenCommand admin with
  | some (c, .openTenant tenant) => s.openTenantBody c tenant
  | _ => s

/-- A tenant newly opened with a descriptor copy (R157). A dropped access of its writer still runs to its end (log entry 10). -/
def State.openWith (s : State) (n : TenantId) (d : Descriptor) : State :=
  s.setTenant n
    { s.tenant n with
      state := .isOpen, desc := some d, head := 0, tail := 0, scanPending := false, inFlight := 0, outbound := []
      intPending := false, stalled := false, recheck := none }

/-! ### CLOSE_TENANT (R158) -/

/-- Step 1: CLOSING, its marks cleared and its line deasserted. -/
def State.beginClosing (s : State) (n : TenantId) : State :=
  s.setTenant n
    { s.tenant n with
      state := .closing, scanPending := false, underWay := false, stalled := false, recheck := none, intPending := false }

/-- One discarded entry (step 2): a completion entry frees its context, a lease marker may free its slot. -/
def Happening.discard (h : Happening) (e : OutEntry) : Happening :=
  match e with
  | .completion c => h.map fun s => s.freeContext c.ctx
  | .marker (.lease x) _ => h.loosen x.slot
  | .marker _ _ => h

/-- Step 2: the outbound queue is discarded. -/
def Happening.discardQueue (h : Happening) (n : TenantId) : Happening :=
  let q := (h.st.tenant n).outbound
  q.foldl Happening.discard (h.map fun s => s.setTenant n { s.tenant n with outbound := [] })

/-- A bus access of the writer runs to its end with its result ignored. -/
def WriterAccess.dropped : WriterAccess → WriterAccess
  | .tailRead addr _ => .tailRead addr .dropped
  | .recheckRead addr _ => .recheckRead addr .dropped
  | .recordWrite addr record ctx _ => .recordWrite addr record ctx .dropped

/-- A bus access of a context runs to its end with its result ignored. -/
def Stage.dropped : Stage → Stage
  | .headRead addr notified _ => .headRead addr notified .dropped
  | .fillWrite addr _ => .fillWrite addr .dropped
  | .reporting addr report _ => .reporting addr report .dropped
  | s => s

/-- Step 3: a command taken and not carried out is freed; accesses on the bus are dropped. -/
def State.dropContexts (s : State) (n : TenantId) : State :=
  let s1 :=
    match s.findContext n Stage.isTaken with
    | some (c, _) => s.freeContext c
    | none => s
  let s2 := s1.mapStages n Stage.dropped
  s2.setTenant n { s2.tenant n with writer := (s2.tenant n).writer.map WriterAccess.dropped }

/-- A stop cause reaches the lease in a slot, if it is live and satisfies a test. -/
def Happening.stopSlot (cause : StopCause) (p : Lease → Bool) (h : Happening) (i : SlotId) : Happening :=
  match h.st.lease? i with
  | some l => if l.live && p l then h.stopCause i l cause else h
  | none => h

/-- A stop cause reaches every live lease that satisfies a test (R158, R186, R188), in an order the spec leaves open (log
entry 8). -/
def Happening.stopAll (h : Happening) (cause : StopCause) (p : Lease → Bool) : Happening :=
  (freeOrder h.st.choices Fin.val (List.finRange 16)).foldl (Happening.stopSlot cause p) (h.map State.chosen)

/-- The other tenant of an offer that a tenant made or is the target of (R150). -/
def Offer.other (o : Offer) (n : TenantId) : Option TenantId :=
  if o.offerer = n then some o.target else if o.target = n then some o.offerer else none

/-- Removes the offer on a rail if a closing tenant has part in it (R150). -/
def Happening.withdrawFor (n : TenantId) (h : Happening) (r : RailId) : Happening :=
  match (h.st.owned r).offer with
  | some o =>
    match o.other n with
    | some m => (h.map fun s => s.dropOffer r).mark m (.rail r) .offerWithdrawn
    | none => h
  | none => h

/-- Step 5: the offers made by or to the tenant are withdrawn, in an order the spec leaves open (log entry 8). -/
def Happening.withdrawAll (h : Happening) (n : TenantId) : Happening :=
  (freeOrder h.st.choices Fin.val (List.finRange 12)).foldl (Happening.withdrawFor n) (h.map State.chosen)

/-- The teardown begins (R158): steps 1 to 5, and the command stays under way until the teardown ends. -/
def Happening.tearDown (h : Happening) (c : CtxId) (n : TenantId) : Happening :=
  let h1 := h.map fun s => (s.setStage c (.tearing n)).beginClosing n
  let h2 := (h1.discardQueue n).map fun s => s.dropContexts n
  ((h2.stopAll .tenantClosed fun l => l.tenant == n).withdrawAll n).checked

/-- A CLOSE_TENANT carried out (R158). -/
def State.closeTenantBody (s : State) (c : CtxId) (tenant : Nat) : State :=
  if s.openable = false then s.refuse c .notServing .none
  else
    match numbered 4 tenant with
    | none => s.refuse c .badValue .none
    | some n =>
      if n = admin then s.refuse c .adminTenant .none
      else if (s.tenant n).hears = false then s.refuse c .tenantState .none
      else (s.begin.tearDown c n).settle

/-- CLOSE_TENANT (R158). -/
def closeTenant (s : State) : State :=
  match s.takenCommand admin with
  | some (c, .closeTenant tenant) => s.closeTenantBody c tenant
  | _ => s

/-! ### TENANT_SIGNAL writes -/

/-- Clears interrupt pending (R174, R175). -/
def State.clearInterrupt (s : State) (t : TenantId) : State := s.setTenant t { s.tenant t with intPending := false }

/-- Marks a head read in progress, so that an empty result does not clear scan-pending (R160). -/
def Stage.noted : Stage → Stage
  | .headRead addr _ fate => .headRead addr true fate
  | s => s

/-- Starts a recheck of the completion tail, unless an access of the writer is in progress (R173). -/
def State.startRecheck (s : State) (t : TenantId) : State :=
  let x := s.tenant t
  match x.writer with
  | none => s.setTenant t { x with writer := some (.recheckRead x.tailAddr .live) }
  | some _ => s

/-- A NOTIFY taken in OPEN (R160). -/
def State.notifyOpen (s : State) (t : TenantId) : State :=
  let s1 := (s.setTenant t { s.tenant t with scanPending := true }).mapStages t Stage.noted
  if (s1.tenant t).stalled then s1.startRecheck t else s1

/-- NOTIFY (R160, R175): ignored outside OPEN; with the ACK bit also set, the ACK is taken in the same happening. -/
def notify (t : TenantId) (alsoAck : Bool) (s : State) : State :=
  let s1 := if alsoAck then s.clearInterrupt t else s
  if (s1.tenant t).state = .isOpen then s1.notifyOpen t else s1

/-- ACK (R175): in any state. -/
def ack (t : TenantId) (s : State) : State := s.clearInterrupt t

/-- IGNORED_REGISTER_WRITE (R180, R181, R175, R199): no effect. -/
def ignoredRegisterWrite (_offset : Nat) (_value : BitVec 64) (s : State) : State := s

/-! ### Intake -/

/-- A tenant is eligible for a context (R164). -/
def Tenant.eligible (x : Tenant) : Bool :=
  (x.state == .isOpen) && x.scanPending && decide (x.inFlight < 12) && !x.underWay

/-- The order that follows a tenant: the next one up to the tenant itself (R164). -/
def tenantsAfter (t : TenantId) : List TenantId := [t + 1, t + 2, t + 3, t]

/-- The tenant the arbiter grants next (R164). -/
def State.nextGranted (s : State) : Option TenantId := (tenantsAfter s.lastGranted).find? fun t => (s.tenant t).eligible

/-- A free context of the pool: the lowest-numbered (log entry 16). -/
def State.freePool (s : State) : Option CtxId := (List.finRange 24).find? fun c => (s.context c).isNone

/-- The grant of a context to a tenant (R161, R164): its head slot is read. -/
def State.grantContext (s : State) (t : TenantId) (c : CtxId) : State :=
  let x := s.tenant t
  { (s.setContext c (some { tenant := t, record := [], tag := none, stage := .headRead x.headAddr false .live })).setTenant t
      { x with inFlight := x.inFlight + 1, underWay := true } with lastGranted := t }

/-- INTAKE_GRANT (R164). -/
def intakeGrant (s : State) : State :=
  match s.nextGranted, s.freePool with
  | some t, some c => s.grantContext t c
  | _, _ => s

/-- The intake of a command ends with nothing taken: the context is freed and command under way is cleared (R161). -/
def State.endIntake (s : State) (t : TenantId) (c : CtxId) : State := (s.freeContext c).setUnderWay t false

/-- A context that a close left on the bus is freed at its access's end, which may end the teardown (R158). -/
def State.freeDropped (s : State) (c : CtxId) : State := ((s.begin.map fun s => s.freeContext c).checked).settle

/-- A head read that found the slot empty (R160, R161). -/
def State.emptyHead (s : State) (t : TenantId) (c : CtxId) (notified : Bool) : State :=
  let s1 := if notified then s else s.setTenant t { s.tenant t with scanPending := false }
  s1.endIntake t c

/-- The data of a live head read (R161). -/
def State.headData (s : State) (t : TenantId) (c : CtxId) (addr : BitVec 64) (notified : Bool) (bytes : List Byte) : State :=
  if byteAt bytes 0 = 0 then s.emptyHead t c notified
  else s.setContext c (some { tenant := t, record := bytes, tag := none, stage := .fillWrite addr .live })

/-- The head read of a stage. -/
def Stage.isHeadRead : Stage → Bool
  | .headRead _ _ _ => true
  | _ => false

/-- HEAD_READ_END (R161, R162, R158): `none` is a bus error. -/
def headReadEnd (t : TenantId) (data : Option (List Byte)) (s : State) : State :=
  match s.findContext t Stage.isHeadRead with
  | some (c, x) =>
    match x.stage with
    | .headRead addr notified fate =>
      match fate, data with
      | .dropped, _ => s.freeDropped c
      | _, none => (s.breakTenant t).endIntake t c
      | .stale, some _ => s.endIntake t c
      | .live, some bytes => s.headData t c addr notified bytes
    | _ => s
  | none => s

/-- The kinds for the admin tenant alone (R167). -/
def Command.adminOnly : Command → Bool
  | .claim _ | .adjust _ _ _ | .release _ | .renew _ _ | .queryLease _ _ | .queryRail _ _ | .queryBudget _ _ | .queryTenant _ _
  | .offerRail _ _ _ | .acceptRail _ | .withdrawOffer _ => false
  | .revoke _ | .setTiers _ _ _ | .setRail _ | .setFeed _ _ _ | .setMargin _ | .setQuota _ _ _ | .setQueuePolicy _ _
  | .assignRail _ _ | .clearLockout _ | .openTenant _ | .closeTenant _ | .startService | .stopService => true

/-- The service is DRAINING. -/
def ServiceState.isDraining : ServiceState → Bool
  | .draining _ _ => true
  | _ => false

/-- The service states in which a kind is allowed (R167). -/
def Command.allowed (cmd : Command) (service : ServiceState) : Bool :=
  match cmd with
  | .claim _ | .adjust _ _ _ | .renew _ _ | .revoke _ | .stopService => service == .serving
  | .release _ => service == .serving || service.isDraining
  | .queryLease _ _ | .queryRail _ _ | .queryBudget _ _ | .queryTenant _ _ | .openTenant _ | .closeTenant _ => service != .idle
  | .setTiers _ _ _ | .setRail _ | .setFeed _ _ _ | .setMargin _ | .setQuota _ _ _ | .setQueuePolicy _ _ | .assignRail _ _
  | .clearLockout _ | .offerRail _ _ _ | .acceptRail _ | .withdrawOffer _ => service == .configuring || service == .serving
  | .startService => service == .configuring

/-- A tag is held by another context of a tenant than a given one (R165). -/
def State.tagHeld (s : State) (t : TenantId) (c : CtxId) (tag : BitVec 16) : Bool :=
  (List.finRange 24).any fun d =>
    match s.context d with
    | some x => decide (d ≠ c ∧ x.tenant = t ∧ x.tag = some tag)
    | none => false

/-- Checks 2 to 4 of the gate (R167): the status of the first failure. -/
def State.gateFault (s : State) (t : TenantId) (record : List Byte) : Option Status :=
  match Command.read record with
  | none => some .badKind
  | some cmd =>
    if cmd.adminOnly ∧ t ≠ admin then some .notAdmin
    else if cmd.allowed s.service = false then some .notServing
    else none

/-- The gating of a command in the happening in which it is taken (R167). A context refused TAG_IN_USE holds no tag (R165). -/
def State.gate (s : State) (t : TenantId) (c : CtxId) (x : Context) : State :=
  let tag := recordTag x.record
  if s.tagHeld t c tag then
    (s.setContext c (some { x with tag := none, stage := .taken })).refuse c .tagInUse .none
  else
    let s1 := s.setContext c (some { x with tag := some tag, stage := .taken })
    match s1.gateFault t x.record with
    | some status => s1.refuse c status .none
    | none => s1

/-- The fill-byte write of a stage. -/
def Stage.isFillWrite : Stage → Bool
  | .fillWrite _ _ => true
  | _ => false

/-- FILL_BYTE_WRITE_END (R161, R162, R158): the head advances and the command is taken and gated. -/
def fillByteWriteEnd (t : TenantId) (result : BusEnd) (s : State) : State :=
  match s.findContext t Stage.isFillWrite with
  | some (c, x) =>
    match x.stage with
    | .fillWrite _ fate =>
      match fate, result with
      | .dropped, _ => s.freeDropped c
      | _, .error => (s.breakTenant t).endIntake t c
      | _, .done => (s.setTenant t { s.tenant t with head := (s.tenant t).nextHead }).gate t c x
    | _ => s
  | none => s

/-! ### The writer -/

/-- Writes the access a tenant's writer has in progress. -/
def State.setWriter (s : State) (t : TenantId) (w : Option WriterAccess) : State :=
  s.setTenant t { s.tenant t with writer := w }

/-- WRITER_START (R172): the tail read of an OPEN, unstalled tenant with a non-empty queue and no access in progress. -/
def writerStart (t : TenantId) (s : State) : State :=
  let x := s.tenant t
  if x.state = .isOpen ∧ x.stalled = false ∧ x.outbound ≠ [] ∧ x.writer = none then
    s.setWriter t (some (.tailRead x.tailAddr .live))
  else s

/-- The time between rechecks, ms (R173). -/
def recheckTime : Nat := 10

/-- The tail slot is filled: the tenant is stalled, with a recheck deadline (R172, R173). -/
def State.stall (s : State) (t : TenantId) : State :=
  s.setTenant t { s.tenant t with stalled := true, recheck := some (s.now + recheckTime), writer := none }

/-- The context that an entry frees when its record has been written. -/
def OutEntry.ctx : OutEntry → Option CtxId
  | .completion c => some c.ctx
  | .marker _ _ => none

/-- The slot that a removed entry may free (R18). -/
def Happening.loosenFor (h : Happening) (e : OutEntry) : Happening :=
  match e with
  | .marker (.lease x) _ => h.loosen x.slot
  | _ => h

/-- The tail slot is empty: the writer takes the entry at the head of the queue, builds its record and starts its write (R171,
R172); stalled is clear (R173). -/
def State.takeEntry (s : State) (t : TenantId) (addr : BitVec 64) : State :=
  let s1 := s.setTenant t { s.tenant t with stalled := false, recheck := none, writer := none }
  match (s1.tenant t).outbound with
  | e :: rest =>
    let s2 := s1.setTenant t
      { s1.tenant t with outbound := rest, writer := some (.recordWrite addr (s1.recordOf e) e.ctx .live) }
    (s2.begin.loosenFor e).settle
  | [] => s1

/-- A read of the tail slot's fill byte ends (R172, R173, R162, R158). -/
def State.tailEnd (s : State) (t : TenantId) (addr : BitVec 64) (fate : Fate) (fill : Option Byte) : State :=
  match fate, fill with
  | .dropped, _ => ((s.setWriter t none).begin.checked).settle
  | _, none => (s.breakTenant t).setWriter t none
  | .stale, some _ => s.setWriter t none
  | .live, some b => if b = 0 then s.takeEntry t addr else s.stall t

/-- TAIL_READ_END (R172): `none` is a bus error. -/
def tailReadEnd (t : TenantId) (fill : Option Byte) (s : State) : State :=
  match (s.tenant t).writer with
  | some (.tailRead addr fate) => s.tailEnd t addr fate fill
  | _ => s

/-- RECHECK_DEADLINE (R173): a stalled tenant's recheck begins, unless an access of its writer is in progress; the deadline that has
acted is removed (log entry 17). -/
def recheckDeadline (t : TenantId) (s : State) : State :=
  match (s.tenant t).recheck with
  | some d => s.atDeadline d ((s.setTenant t { s.tenant t with recheck := none }).startRecheck t)
  | none => s

/-- RECHECK_READ_END (R173): `none` is a bus error. -/
def recheckReadEnd (t : TenantId) (fill : Option Byte) (s : State) : State :=
  match (s.tenant t).writer with
  | some (.recheckRead addr fate) => s.tailEnd t addr fate fill
  | _ => s

/-- The context of a completion entry whose record write has ended is freed; a notice frees none. -/
def State.freeWritten (s : State) (ctx : Option CtxId) : State :=
  match ctx with
  | some c => s.freeContext c
  | none => s

/-- A record write ends without error (R172, R174): the tail advances, and interrupt pending is set if interrupts are enabled. -/
def State.recordDone (s : State) (t : TenantId) (ctx : Option CtxId) : State :=
  let x := s.tenant t
  (s.setTenant t
    { x with tail := x.nextTail, intPending := x.intPending || x.interrupts, writer := none }).freeWritten ctx

/-- RECORD_WRITE_END (R172, R162, R158): an error loses the entry. -/
def recordWriteEnd (t : TenantId) (result : BusEnd) (s : State) : State :=
  match (s.tenant t).writer with
  | some (.recordWrite _ _ ctx fate) =>
    match fate, result with
    | .dropped, _ => (((s.setWriter t none).begin.map fun s => s.freeWritten ctx).checked).settle
    | _, .error => ((s.breakTenant t).setWriter t none).freeWritten ctx
    | _, .done => s.recordDone t ctx
  | _ => s

/-! ### Report writes -/

/-- The report write of a stage. -/
def Stage.isReporting : Stage → Bool
  | .reporting _ _ _ => true
  | _ => false

/-- The status with which a report write's end finishes its query (R168). -/
def reportStatus : BusEnd → Status
  | .done => .ok
  | .error => .busError

/-- REPORT_WRITE_END (R168, R158). -/
def reportWriteEnd (t : TenantId) (result : BusEnd) (s : State) : State :=
  match s.findContext t Stage.isReporting with
  | some (c, x) =>
    match x.stage with
    | .reporting _ _ .dropped => s.freeDropped c
    | .reporting _ _ _ => s.refuse c (reportStatus result) .none
    | _ => s
  | none => s

/-! ### Descriptor reads -/

/-- What a descriptor read comes to (R156): the descriptor, or the start error of R177. -/
def descriptorOutcome (data : Option (List Byte)) : Except StartError Descriptor :=
  match data with
  | none => .error .busError
  | some bytes =>
    match judgeDescriptor bytes with
    | some d => .ok d
    | none => .error .badDescriptor

/-- The status of a failed descriptor read (R157). -/
def StartError.status : StartError → Status
  | .badDescriptor => .badDescriptor
  | .busError => .busError
  | .none => .ok

/-- The descriptor read of a stage. -/
def Stage.isOpenRead : Stage → Bool
  | .openRead _ _ => true
  | _ => false

/-- The end of an OPEN_TENANT's descriptor read (R157 check 5). -/
def State.openReadEnd (s : State) (data : Option (List Byte)) : State :=
  match s.findContext admin Stage.isOpenRead with
  | some (c, x) =>
    match x.stage with
    | .openRead n _ =>
      match descriptorOutcome data with
      | .ok d => ((s.openWith n d).begin.reply c .ok).settle
      | .error e => s.refuse c e.status .none
    | _ => s
  | none => s

/-- Tenant 0 reopened with a new descriptor copy (R162, R185). -/
def State.reopen (s : State) (d : Descriptor) : State :=
  s.setTenant admin
    { s.tenant admin with
      state := .isOpen, desc := some d, head := 0, tail := 0, scanPending := false, stalled := false, recheck := none }

/-- The record of a CONTROL action's end in STATUS (R177, R184, R185). -/
def State.actionEnded (s : State) (action : LastAction) (e : StartError) : State :=
  { s with
    controlRead := none, lastAction := action, outcome := if e = .none then .done else .failed, startError := e }

/-- The end of the control read (R184, R185). -/
def State.controlReadEnd (s : State) (data : Option (List Byte)) : State :=
  match s.controlRead, descriptorOutcome data with
  | some (.start _), .ok d => { (s.openWith admin d).actionEnded .start .none with service := .configuring }
  | some (.start _), .error e => s.actionEnded .start e
  | some (.adminReopen _), .ok d => (s.reopen d).actionEnded .adminReopen .none
  | some (.adminReopen _), .error e => s.actionEnded .adminReopen e
  | none, _ => s

/-- DESCRIPTOR_READ_END (R156, R157, R184, R185): `none` is a bus error. -/
def descriptorReadEnd (who : DescriptorReader) (data : Option (List Byte)) (s : State) : State :=
  match who with
  | .control => s.controlReadEnd data
  | .openTenant => s.openReadEnd data

/-! ### The meanings of the rows -/

/-- The row QUERY_TENANT (R176): it always has a next state. -/
def execQueryTenant (t : TenantId) (s : State) : Host.Outcome State Fault Refusal :=
  .next (queryTenant t s)

/-- The row OPEN_TENANT (R157): it always has a next state. -/
def execOpenTenant (s : State) : Host.Outcome State Fault Refusal :=
  .next (openTenant s)

/-- The row CLOSE_TENANT (R158): it always has a next state. -/
def execCloseTenant (s : State) : Host.Outcome State Fault Refusal :=
  .next (closeTenant s)

/-- The row NOTIFY (R160): it always has a next state. -/
def execNotify (t : TenantId) (alsoAck : Bool) (s : State) : Host.Outcome State Fault Refusal :=
  .next (notify t alsoAck s)

/-- The row ACK (R175): it always has a next state. -/
def execAck (t : TenantId) (s : State) : Host.Outcome State Fault Refusal :=
  .next (ack t s)

/-- The row IGNORED_REGISTER_WRITE (R199): it always has a next state. -/
def execIgnoredRegisterWrite (offset : Nat) (value : BitVec 64) (s : State) : Host.Outcome State Fault Refusal :=
  .next (ignoredRegisterWrite offset value s)

/-- The row RECHECK_DEADLINE (R173): it always has a next state. -/
def execRecheckDeadline (t : TenantId) (s : State) : Host.Outcome State Fault Refusal :=
  .next (recheckDeadline t s)

/-- The row DESCRIPTOR_READ_END (R156): it always has a next state. -/
def execDescriptorReadEnd (who : DescriptorReader) (data : Option (List Byte)) (s : State) : Host.Outcome State Fault Refusal :=
  .next (descriptorReadEnd who data s)

/-- The row INTAKE_GRANT (R164): it always has a next state. -/
def execIntakeGrant (s : State) : Host.Outcome State Fault Refusal :=
  .next (intakeGrant s)

/-- The row HEAD_READ_END (R161): it always has a next state. -/
def execHeadReadEnd (t : TenantId) (data : Option (List Byte)) (s : State) : Host.Outcome State Fault Refusal :=
  .next (headReadEnd t data s)

/-- The row FILL_BYTE_WRITE_END (R161): it always has a next state. -/
def execFillByteWriteEnd (t : TenantId) (result : BusEnd) (s : State) : Host.Outcome State Fault Refusal :=
  .next (fillByteWriteEnd t result s)

/-- The row WRITER_START (R172): it always has a next state. -/
def execWriterStart (t : TenantId) (s : State) : Host.Outcome State Fault Refusal :=
  .next (writerStart t s)

/-- The row TAIL_READ_END (R172): it always has a next state. -/
def execTailReadEnd (t : TenantId) (fill : Option Byte) (s : State) : Host.Outcome State Fault Refusal :=
  .next (tailReadEnd t fill s)

/-- The row RECORD_WRITE_END (R172): it always has a next state. -/
def execRecordWriteEnd (t : TenantId) (result : BusEnd) (s : State) : Host.Outcome State Fault Refusal :=
  .next (recordWriteEnd t result s)

/-- The row RECHECK_READ_END (R173): it always has a next state. -/
def execRecheckReadEnd (t : TenantId) (fill : Option Byte) (s : State) : Host.Outcome State Fault Refusal :=
  .next (recheckReadEnd t fill s)

/-- The row REPORT_WRITE_END (R168): it always has a next state. -/
def execReportWriteEnd (t : TenantId) (result : BusEnd) (s : State) : Host.Outcome State Fault Refusal :=
  .next (reportWriteEnd t result s)

end Sys2Proof.Machine
end

