-- ==== Sys2Proof/Machine/Service.lean ====
section
/-! DEFINITION. The service controller and the resets: POWER_ON (R191), the CONTROL actions (R183 to R186, R192),
DESCRIPTOR_BASE_WRITE (R182), START_SERVICE (R187) and STOP_SERVICE (R188). -/

namespace Sys2Proof.Machine

/-! ### Power-on -/

/-- A feed at power-on, by the level of its sense line (R54). -/
def Feed.atPowerOn (now : Nat) (high : Bool) : Feed :=
  if high then { Feed.powerOn with state := .qualifying (now + Feed.powerOn.qualify) } else Feed.powerOn

/-- POWER_ON (R191): every block takes its power-on values; the model's own fields are kept (log entry 23). -/
def powerOn (sense0 sense1 sense2 : Bool) (s : State) : State :=
  { State.reset with
    now := s.now, pending := s.pending, choices := s.choices
    feeds := #v[Feed.atPowerOn s.now sense0, Feed.atPowerOn s.now sense1, Feed.atPowerOn s.now sense2] }

/-! ### CONTROL -/

/-- Records an action's outcome in the state that STATUS shows (R177, R183). -/
def State.recordAction (s : State) (action : LastAction) (outcome : ActionOutcome) : State :=
  { s with lastAction := action, outcome := outcome }

/-- START (R183, R184): taken in IDLE with no control read running. -/
def start (s : State) : State :=
  if s.service = .idle ∧ s.controlRead = none then
    { s.recordAction .start .pending with controlRead := some (.start (s.descriptorAddr admin)) }
  else s.recordAction .start .ignored

/-- The waiting-command mark of the drain record (R177). -/
def ServiceState.waiting : ServiceState → Bool
  | .draining _ w => w
  | _ => false

/-- The effect of an EMERGENCY_STOP that is taken (R186). -/
def State.emergency (s : State) : State :=
  let s1 := { s with service := .draining .emergency s.service.waiting }
  ((s1.begin.stopAll .emergency fun _ => true).checked).settle

/-- EMERGENCY_STOP (R183, R186): taken in every state but IDLE. -/
def emergencyStop (s : State) : State :=
  if s.openable then (s.recordAction .emergencyStop .done).emergency else s.recordAction .emergencyStop .ignored

/-- A slot after a soft reset (R1): free, its generation advanced if it held a record. -/
def Slot.reset (x : Slot) : Slot :=
  match x.lease with
  | some _ => { gen := nextGen x.gen, lease := none }
  | none => x

/-- A rail's live state after a soft reset (R117): a powered rail goes FALLING, and every lease handle is 0. -/
def State.resetRail (s : State) (r : RailId) : State := ((s.enterFalling r).cancelStable r).setMembership r none

/-- SOFT_RESET (R192): taken in every state. -/
def softReset (s : State) : State :=
  let s1 := (List.finRange 12).foldl State.resetRail s
  { s1 with
    slots := s1.slots.map Slot.reset
    accounts := s1.accounts.map fun a => { a with charged := 0 }
    chargedTotal := 0, committedTotal := 0, grantOrder := []
    queue := []
    ownership := s1.ownership.map fun o => { o with offer := none }
    tenants := Vector.replicate 4 Tenant.powerOn
    pool := Vector.replicate 24 none
    lastGranted := 3
    service := .idle, controlRead := none
    lastAction := .softReset, outcome := .done, startError := .none }

/-- Tenant 0 has an OPEN_TENANT under way: taken and not finished (R166, R183; log entry 13). DESIGN CHOICE, unsafe (log entry 30):
one whose fill-byte write is still on the bus is not counted, so an ADMIN_REOPEN in that window is accepted. -/
def State.openUnderWay (s : State) : Bool :=
  (s.findContext admin Stage.isOpenRead).isSome ||
    match s.takenCommand admin with
    | some (_, .openTenant _) => true
    | _ => false

/-- ADMIN_REOPEN (R183, R185). -/
def adminReopen (s : State) : State :=
  if (s.tenant admin).state = .broken ∧ s.controlRead = none ∧ s.openUnderWay = false then
    { s.recordAction .adminReopen .pending with controlRead := some (.adminReopen (s.descriptorAddr admin)) }
  else s.recordAction .adminReopen .ignored

/-- UNKNOWN_ACTION (R183). -/
def unknownAction (_code : Byte) (s : State) : State := s.recordAction .unknown .ignored

/-! ### DESCRIPTOR_BASE -/

/-- The low 7 bits of an address held as 0 (R182). -/
def alignBase (v : BitVec 64) : BitVec 64 := v.extractLsb' 7 57 ++ 0#7

/-- The value a write gives to DESCRIPTOR_BASE: a half write changes that half alone (R182, R199). -/
def baseWritten (w : BaseWrite) (old : BitVec 64) : BitVec 64 :=
  match w with
  | .whole v => alignBase v
  | .lower v => alignBase (old.extractLsb' 32 32 ++ v)
  | .upper v => alignBase (v ++ old.extractLsb' 0 32)

/-- DESCRIPTOR_BASE_WRITE (R182): taken in IDLE with no control read running. -/
def descriptorBaseWrite (w : BaseWrite) (s : State) : State :=
  if s.service = .idle ∧ s.controlRead = none then { s with descriptorBase := baseWritten w s.descriptorBase } else s

/-! ### START_SERVICE and STOP_SERVICE -/

/-- A START_SERVICE carried out (R187). -/
def State.startServiceBody (s : State) (c : CtxId) : State :=
  if s.service = .configuring then ((s.begin.map fun s => { s with service := .serving }).reply c .ok).settle
  else s.refuse c .notServing .none

/-- START_SERVICE (R187). -/
def startService (s : State) : State :=
  match s.takenCommand admin with
  | some (c, .startService) => s.startServiceBody c
  | _ => s

/-- A STOP_SERVICE carried out (R188): the drain begins, and the command stays under way until it ends (R189). -/
def State.stopServiceBody (s : State) (c : CtxId) : State :=
  if s.service = .serving then
    let s1 := { s.setStage c .draining with service := .draining .serviceStopped true }
    ((s1.begin.stopAll .serviceStopped fun _ => true).checked).settle
  else s.refuse c .notServing .none

/-- STOP_SERVICE (R188). -/
def stopService (s : State) : State :=
  match s.takenCommand admin with
  | some (c, .stopService) => s.stopServiceBody c
  | _ => s

/-! ### The meanings of the rows -/

/-- The row POWER_ON (R191): it always has a next state. -/
def execPowerOn (sense0 : Bool) (sense1 : Bool) (sense2 : Bool) (s : State) : Host.Outcome State Fault Refusal :=
  .next (powerOn sense0 sense1 sense2 s)

/-- The row START (R184): it always has a next state. -/
def execStart (s : State) : Host.Outcome State Fault Refusal :=
  .next (start s)

/-- The row EMERGENCY_STOP (R186): it always has a next state. -/
def execEmergencyStop (s : State) : Host.Outcome State Fault Refusal :=
  .next (emergencyStop s)

/-- The row SOFT_RESET (R192): it always has a next state. -/
def execSoftReset (s : State) : Host.Outcome State Fault Refusal :=
  .next (softReset s)

/-- The row ADMIN_REOPEN (R185): it always has a next state. -/
def execAdminReopen (s : State) : Host.Outcome State Fault Refusal :=
  .next (adminReopen s)

/-- The row UNKNOWN_ACTION (R183): it always has a next state. -/
def execUnknownAction (code : Byte) (s : State) : Host.Outcome State Fault Refusal :=
  .next (unknownAction code s)

/-- The row DESCRIPTOR_BASE_WRITE (R182): it always has a next state. -/
def execDescriptorBaseWrite (w : BaseWrite) (s : State) : Host.Outcome State Fault Refusal :=
  .next (descriptorBaseWrite w s)

/-- The row START_SERVICE (R187): it always has a next state. -/
def execStartService (s : State) : Host.Outcome State Fault Refusal :=
  .next (startService s)

/-- The row STOP_SERVICE (R188): it always has a next state. -/
def execStopService (s : State) : Host.Outcome State Fault Refusal :=
  .next (stopService s)

end Sys2Proof.Machine
end

