-- ==== Sys2Proof/Machine/Dispatch.lean ====
section
/-! DEFINITION. One arm per happening: the meaning of each row. -/

namespace Sys2Proof.Machine

def exec (i : Instr) (s : State) : Host.Outcome State Fault Refusal :=
  match i with
  | .powerOn sense0 sense1 sense2 => Sys2Proof.Machine.execPowerOn sense0 sense1 sense2 s
  | .claim t => Sys2Proof.Machine.execClaim t s
  | .adjust t => Sys2Proof.Machine.execAdjust t s
  | .release t => Sys2Proof.Machine.execRelease t s
  | .revoke => Sys2Proof.Machine.execRevoke s
  | .renew t => Sys2Proof.Machine.execRenew t s
  | .queryLease t => Sys2Proof.Machine.execQueryLease t s
  | .queryRail t pgHigh => Sys2Proof.Machine.execQueryRail t pgHigh s
  | .queryBudget t => Sys2Proof.Machine.execQueryBudget t s
  | .queryTenant t => Sys2Proof.Machine.execQueryTenant t s
  | .setTiers => Sys2Proof.Machine.execSetTiers s
  | .setRail => Sys2Proof.Machine.execSetRail s
  | .setFeed => Sys2Proof.Machine.execSetFeed s
  | .setMargin => Sys2Proof.Machine.execSetMargin s
  | .setQuota => Sys2Proof.Machine.execSetQuota s
  | .setQueuePolicy => Sys2Proof.Machine.execSetQueuePolicy s
  | .assignRail => Sys2Proof.Machine.execAssignRail s
  | .clearLockout => Sys2Proof.Machine.execClearLockout s
  | .offerRail t => Sys2Proof.Machine.execOfferRail t s
  | .acceptRail t => Sys2Proof.Machine.execAcceptRail t s
  | .withdrawOffer t => Sys2Proof.Machine.execWithdrawOffer t s
  | .openTenant => Sys2Proof.Machine.execOpenTenant s
  | .closeTenant => Sys2Proof.Machine.execCloseTenant s
  | .startService => Sys2Proof.Machine.execStartService s
  | .stopService => Sys2Proof.Machine.execStopService s
  | .start => Sys2Proof.Machine.execStart s
  | .emergencyStop => Sys2Proof.Machine.execEmergencyStop s
  | .softReset => Sys2Proof.Machine.execSoftReset s
  | .adminReopen => Sys2Proof.Machine.execAdminReopen s
  | .unknownAction code => Sys2Proof.Machine.execUnknownAction code s
  | .descriptorBaseWrite w => Sys2Proof.Machine.execDescriptorBaseWrite w s
  | .notify t alsoAck => Sys2Proof.Machine.execNotify t alsoAck s
  | .ack t => Sys2Proof.Machine.execAck t s
  | .ignoredRegisterWrite offset value => Sys2Proof.Machine.execIgnoredRegisterWrite offset value s
  | .senseLineRise f => Sys2Proof.Machine.execSenseLineRise f s
  | .senseLineFall f => Sys2Proof.Machine.execSenseLineFall f s
  | .qualifyDeadline f => Sys2Proof.Machine.execQualifyDeadline f s
  | .pgRise r => Sys2Proof.Machine.execPgRise r s
  | .pgFall r => Sys2Proof.Machine.execPgFall r s
  | .lowReached r => Sys2Proof.Machine.execLowReached r s
  | .stageFault r kind => Sys2Proof.Machine.execStageFault r kind s
  | .rampDeadline r => Sys2Proof.Machine.execRampDeadline r s
  | .slewDeadline r pgHigh => Sys2Proof.Machine.execSlewDeadline r pgHigh s
  | .dischargeDeadline r => Sys2Proof.Machine.execDischargeDeadline r s
  | .stepDelayEnd h => Sys2Proof.Machine.execStepDelayEnd h s
  | .backoffDeadline h => Sys2Proof.Machine.execBackoffDeadline h s
  | .stableDeadline r => Sys2Proof.Machine.execStableDeadline r s
  | .lapse h => Sys2Proof.Machine.execLapse h s
  | .waitDeadline h => Sys2Proof.Machine.execWaitDeadline h s
  | .offerExpiry r => Sys2Proof.Machine.execOfferExpiry r s
  | .recheckDeadline t => Sys2Proof.Machine.execRecheckDeadline t s
  | .descriptorReadEnd who data => Sys2Proof.Machine.execDescriptorReadEnd who data s
  | .intakeGrant => Sys2Proof.Machine.execIntakeGrant s
  | .headReadEnd t data => Sys2Proof.Machine.execHeadReadEnd t data s
  | .fillByteWriteEnd t result => Sys2Proof.Machine.execFillByteWriteEnd t result s
  | .writerStart t => Sys2Proof.Machine.execWriterStart t s
  | .tailReadEnd t fill => Sys2Proof.Machine.execTailReadEnd t fill s
  | .recordWriteEnd t result => Sys2Proof.Machine.execRecordWriteEnd t result s
  | .recheckReadEnd t fill => Sys2Proof.Machine.execRecheckReadEnd t fill s
  | .reportWriteEnd t result => Sys2Proof.Machine.execReportWriteEnd t result s

end Sys2Proof.Machine
end

