-- ==== Sys2Proof/Machine/Flags.lean ====
section
/-! DEFINITION. What software and the board see without a command: the eight registers (R175, R180 to R183, R198, R199), the
interrupt lines (R174) and the stage ports (R96). A register read changes nothing, so it is a view of the state. -/

namespace Sys2Proof.Machine

/-- A field of a register: a value at its lowest bit. -/
def field (value lowest : Nat) : BitVec 64 := BitVec.ofNat 64 (value * 2 ^ lowest)

/-- IDENT: constant values (R180, R198). -/
def identWord : BitVec 64 :=
  field 0x1216 0 ||| field 0x6D 16 ||| field 1 24 ||| field 12 32 ||| field 16 40 ||| field 24 48 ||| field 8 56 |||
    field 3 60 ||| field 3 62

namespace State

/-- The tenant is BROKEN. -/
def isBroken (s : State) (t : TenantId) : Bool := (s.tenant t).state == .broken

/-- STATUS (R181, R198). -/
def statusWord (s : State) : BitVec 64 :=
  field s.service.code 0 ||| field s.service.drainCode 2 |||
    field (flagBit (s.isBroken 0) 0 + flagBit (s.isBroken 1) 1 + flagBit (s.isBroken 2) 2 + flagBit (s.isBroken 3) 3) 4 |||
    field (flagBit s.controlRead.isSome 0) 8 ||| field s.lastAction.code 12 ||| field s.outcome.code 16 |||
    field s.startError.code 20

/-- TENANT_SIGNAL of a tenant (R175, R198). -/
def signalWord (s : State) (t : TenantId) : BitVec 64 :=
  field (s.tenant t).state.code 0 ||| field (flagBit (s.tenant t).intPending 0) 2 ||| field (flagBit (s.tenant t).stalled 0) 3 |||
    field (s.tenant t).inFlight 8

/-- The 64-bit register at an offset that is a multiple of 8; CONTROL and unused offsets read 0 (R183, R198, R199). -/
def registerAt (s : State) (offset : Nat) : BitVec 64 :=
  if offset = 0x000 then identWord
  else if offset = 0x008 then s.statusWord
  else if offset = 0x018 then s.descriptorBase
  else
    match signalTenant offset with
    | some t => s.signalWord t
    | none => 0

/-- A register read (R199): a 32-bit read reaches the half it names. `none`: not an access of the window aligned to its width. -/
def readRegister (s : State) (offset : Nat) (width : AccessWidth) : Option (BitVec 64) :=
  if 0x5000 ≤ offset ∨ offset % width.bytes ≠ 0 then none
  else
    match width with
    | .w64 => some (s.registerAt offset)
    | .w32 =>
      if offset % 8 = 0 then some (((s.registerAt offset).extractLsb' 0 32).setWidth 64)
      else some (((s.registerAt (offset - 4)).extractLsb' 32 32).setWidth 64)

/-- A tenant's interrupt line (R174). -/
def interruptLine (s : State) (t : TenantId) : Bool := (s.tenant t).intPending

/-- A feed's sense line: high exactly when the feed is not ABSENT (R54, R55). -/
def senseLine (s : State) (f : FeedId) : Bool := !((s.feed f).state == .absent)

/-- What a rail's stage port is driven with: enable, set voltage, current limit (R96). -/
def stagePort (s : State) (r : RailId) : Bool × Nat × Nat :=
  ((s.rail r).enable, (s.rail r).drive.at s.now, (s.rail r).currentLimit)

end State

end Sys2Proof.Machine
end

