-- ==== Sys2Proof/Safety.lean ====
section
/-! DEFINITION. The laws the spec states of the part between two happenings, as predicates of a state. `ConfigInv`, `TierInv`,
`OfferInv`, `MarkerInv` and `QueueInv` each hold of every next state of a state they hold of, by themselves; the others are laws of
the reachable states, which rest on one another. -/

namespace Sys2Proof.Machine

/-! ### Laws that every happening keeps by themselves -/

/-- The ranges of the part's records: generations (R1), feeds (R54), margin (R57), quotas and classes (R58), pass counts and queue
policy (R76), rail configurations (R93), fault counts (R121), DESCRIPTOR_BASE (R182). -/
structure ConfigInv (s : State) : Prop where
  generation : ∀ i, (s.slot i).gen ≠ 0
  feed       : ∀ f, (s.feed f).capacity ≤ 4000000 ∧ 10 ≤ (s.feed f).qualify ∧ (s.feed f).qualify ≤ 5000
  margin     : s.margin ≤ 1000000
  account    : ∀ t, (s.account t).quota ≤ 12000000 ∧ (s.account t).maxClass ≤ 3
  policy     : s.passLimit ≤ 15 ∧ 1 ≤ s.defaultWait ∧ s.defaultWait ≤ 600
  rail       : ∀ r, (s.config r).inRange = true
  fault      : ∀ r, (s.faultRecord r).count ≤ 15
  base       : s.descriptorBase.extractLsb' 0 7 = 0

/-- Every tier of every rail's list lies within the rail's limits (R32), and a list holds at most 6 tiers (R29). -/
def TierInv (s : State) : Prop := ∀ r, tiersWithin (s.tierList r) (s.config r) = true ∧ (s.tierList r).length ≤ 6

/-- The offer law (R141): the offerer of a pending offer is the rail's owner and differs from the target. -/
def OfferInv (s : State) : Prop :=
  ∀ r o, (s.owned r).offer = some o → (s.owned r).owner = some o.offerer ∧ o.offerer ≠ o.target

/-- The subject of a marker. -/
def OutEntry.subject? : OutEntry → Option Subject
  | .marker x _ => some x
  | .completion _ => none

/-- The marker law (R170): each outbound queue holds at most one marker per subject. -/
def MarkerInv (s : State) : Prop := ∀ t, ((s.tenant t).outbound.filterMap OutEntry.subject?).Nodup

/-- The kind of an entry is RESTORE. -/
def QueueEntry.isRestore (e : QueueEntry) : Bool := e.kind == .restore

/-- The pass count of an entry; a RESTORE entry keeps 0 (R76). -/
def QueueEntry.passCount (e : QueueEntry) : Nat :=
  match e.kind with
  | .claim _ n => n
  | .restore => 0

/-- The form of the deferred queue (R76, R79): at most 8 entries, pass counts at most 15, every RESTORE entry before every CLAIM
entry. -/
def QueueInv (s : State) : Prop :=
  s.queue.length ≤ 8 ∧ (∀ e ∈ s.queue, e.passCount ≤ 15) ∧
    s.queue.Pairwise fun a b => b.isRestore = true → a.isRestore = true

/-! ### Laws of the reachable states -/

/-- A lease holds charge in STARTING, ACTIVE, ADJUSTING, RETRY_WAIT and STOPPING (00_scope.md 1.5, R59). -/
def Lease.holds (l : Lease) : Bool :=
  match l.state with
  | .starting _ | .active | .adjusting _ | .retryWait _ | .stopping _ => true
  | _ => false

/-- A lease is committed in STARTING, ACTIVE, ADJUSTING and RETRY_WAIT (R59, R63). -/
def Lease.committed (l : Lease) : Bool :=
  match l.state with
  | .starting _ | .active | .adjusting _ | .retryWait _ => true
  | _ => false

/-- The records that slots hold, with their slots. -/
def State.records (s : State) : List (SlotId × Lease) :=
  (List.finRange 16).filterMap fun i => (s.lease? i).map fun l => (i, l)

/-- The sum of the charges of the leases that satisfy a test. -/
def State.sumCharges (s : State) (p : Lease → Bool) : Nat :=
  ((s.records.filter fun x => p x.2).map fun x => x.2.charge).sum

/-- The totals law (R59). -/
def TotalsLaw (s : State) : Prop :=
  s.chargedTotal = s.sumCharges Lease.holds ∧ s.committedTotal = s.sumCharges Lease.committed ∧
    ∀ t, (s.account t).charged = s.sumCharges fun l => l.holds && l.tenant == t

/-- The budget law (R65). -/
def BudgetLaw (s : State) : Prop := s.committedTotal ≤ s.available

/-- The quota law (R66). -/
def QuotaLaw (s : State) : Prop := ∀ t, (s.account t).charged ≤ (s.account t).quota

/-- The grant order list holds the committed leases, each once (R63). -/
def GrantOrderLaw (s : State) : Prop :=
  s.grantOrder.Nodup ∧ (∀ h ∈ s.grantOrder, ∃ l, s.resolve h = some l ∧ l.committed = true) ∧
    ∀ x ∈ s.records, x.2.committed = true → s.handleOf x.1 ∈ s.grantOrder

/-- A lease waits in WAITING and SUSPENDED. -/
def Lease.waits (l : Lease) : Bool :=
  match l.state with
  | .waiting | .suspended => true
  | _ => false

/-- The entries of the queue and the leases that wait are the same (R79). -/
def EntryLaw (s : State) : Prop :=
  (s.queue.map QueueEntry.handle).Nodup ∧
    (∀ e ∈ s.queue, ∃ l, s.resolve e.handle = some l ∧ l.state = (if e.isRestore then .suspended else .waiting)) ∧
    ∀ x ∈ s.records, x.2.waits = true → s.handleOf x.1 ∈ s.queue.map QueueEntry.handle

/-- The members of the leases and the lease handles of the rails agree, and a live lease's tenant owns its rails (R27, R98). -/
def MembershipLaw (s : State) : Prop :=
  (∀ x ∈ s.records, x.2.live = true →
      (x.2.members.map Member.rail).Nodup ∧ 1 ≤ x.2.members.length ∧ x.2.members.length ≤ 4 ∧
        ∀ m ∈ x.2.members, (s.rail m.rail).lease = some (s.handleOf x.1) ∧ (s.owned m.rail).owner = some x.2.tenant) ∧
    ∀ r h, (s.rail r).lease = some h → ∃ l, s.liveLease h = some l ∧ r ∈ l.members.map Member.rail

/-- Every member of an ACTIVE lease is ON (R28). -/
def ActiveLaw (s : State) : Prop :=
  ∀ x ∈ s.records, x.2.state = .active → ∀ m ∈ x.2.members, (s.rail m.rail).state = .on

/-- A lease may have a powered member in STARTING, ACTIVE, ADJUSTING and STOPPING (R104). -/
def Lease.runs (l : Lease) : Bool :=
  match l.state with
  | .starting _ | .active | .adjusting _ | .stopping _ => true
  | _ => false

/-- The rail laws (R104): a powered rail is a member of a lease that runs, a LOCKED rail of no live lease that is not STOPPING. -/
def RailLaw (s : State) : Prop :=
  ∀ r,
    ((s.rail r).powered = true → ∃ x, s.leaseOfRail r = some x ∧ x.2.runs = true) ∧
      ((s.rail r).state = .locked → ∀ x, s.leaseOfRail r = some x → x.2.stop?.isSome = true)

/-- The contexts a tenant holds. -/
def State.contextsOf (s : State) (t : TenantId) : List Context :=
  (List.finRange 24).filterMap fun c => (s.context c).filter fun x => decide (x.tenant = t)

/-- The context law (R165): the in-flight count counts the contexts held, at most 12, whose tags are distinct. -/
def ContextLaw (s : State) : Prop :=
  ∀ t, (s.tenant t).inFlight = (s.contextsOf t).length ∧ (s.tenant t).inFlight ≤ 12 ∧
    ((s.contextsOf t).filterMap Context.tag).Nodup

/-- The tenant laws (R153, R154): a descriptor copy is absent exactly in CLOSED; the indices lie in their rings; an outbound queue
holds at most 41 entries (R170), and none in CLOSED and CLOSING (R158); a tenant is stalled only in OPEN (R162, R173). -/
def TenantLaw (s : State) : Prop :=
  ∀ t,
    let x := s.tenant t
    (x.desc = none ↔ x.state = .closed) ∧
      (∀ d, x.desc = some d → x.head < d.subSize ∧ x.tail < d.compSize) ∧
      x.outbound.length ≤ 41 ∧ (x.hears = false → x.outbound = []) ∧ (x.stalled = true → x.state = .isOpen)

/-- The consequences of the service state (R179). -/
def ServiceLaw (s : State) : Prop :=
  match s.service with
  | .idle => s.records = [] ∧ s.queue = [] ∧ ∀ t, (s.tenant t).state = .closed
  | .configuring => s.anyLive = false ∧ s.queue = [] ∧ (s.tenant admin).hears = true
  | .serving => (s.tenant admin).hears = true
  | .draining _ _ =>
    s.queue = [] ∧ (s.tenant admin).hears = true ∧ s.anyLive = true ∧
      ∀ x ∈ s.records, x.2.live = true → x.2.stop?.isSome = true

/-! ### The terms of the claims: what a happening leaves alone, and what it puts into the outbound queues -/

/-- The lease slots are as they were. -/
def KeepsLeases (s u : State) : Prop := u.slots = s.slots

/-- Feeds, margin, quotas, classes, totals and the grant order list are as they were. -/
def KeepsBudget (s u : State) : Prop :=
  u.feeds = s.feeds ∧ u.margin = s.margin ∧ u.accounts = s.accounts ∧ u.chargedTotal = s.chargedTotal ∧
    u.committedTotal = s.committedTotal ∧ u.grantOrder = s.grantOrder

/-- The deferred queue and its policy are as they were. -/
def KeepsQueue (s u : State) : Prop := u.queue = s.queue ∧ u.passLimit = s.passLimit ∧ u.defaultWait = s.defaultWait

/-- Configurations, live states and fault records of the rails are as they were. -/
def KeepsRails (s u : State) : Prop := u.railConfig = s.railConfig ∧ u.rails = s.rails ∧ u.faults = s.faults

/-- Tier lists are as they were. -/
def KeepsTiers (s u : State) : Prop := u.tiers = s.tiers

/-- Owners and offers are as they were. -/
def KeepsOwners (s u : State) : Prop := u.ownership = s.ownership

/-- Tenant contexts, command contexts and the arbiter's turn are as they were. -/
def KeepsRings (s u : State) : Prop := u.tenants = s.tenants ∧ u.pool = s.pool ∧ u.lastGranted = s.lastGranted

/-- The service controller's state is as it was. -/
def KeepsService (s u : State) : Prop :=
  u.service = s.service ∧ u.controlRead = s.controlRead ∧ u.descriptorBase = s.descriptorBase ∧
    u.lastAction = s.lastAction ∧ u.outcome = s.outcome ∧ u.startError = s.startError

/-- The model's own fields are as they were. -/
def KeepsClock (s u : State) : Prop := u.now = s.now ∧ u.pending = s.pending ∧ u.choices = s.choices

/-- Every rail but one has its live state and its fault record as they were; configurations are kept. -/
def KeepsOtherRails (s u : State) (r : RailId) : Prop :=
  u.railConfig = s.railConfig ∧ ∀ q, q ≠ r → u.rail q = s.rail q ∧ u.faultRecord q = s.faultRecord q

/-- Every slot but one is as it was. -/
def KeepsOtherSlots (s u : State) (i : SlotId) : Prop := ∀ j, j ≠ i → u.slot j = s.slot j

/-- A tenant's queue after a happening's markers (R170): each is updated in place or joins the tail. -/
def withMarks (t : TenantId) (marks : List (TenantId × Subject × Reason)) (q : List OutEntry) : List OutEntry :=
  (marks.filter fun m => m.1 == t).foldl (fun q m => addMarker m.2.1 m.2.2 q) q

/-- A tenant after a happening's markers: those of OPEN and BROKEN tenants are added, others not (R17, R74, R152). -/
def Tenant.withMarks (x : Tenant) (t : TenantId) (marks : List (TenantId × Subject × Reason)) : Tenant :=
  if x.hears then { x with outbound := Machine.withMarks t marks x.outbound } else x

/-- A happening puts these markers into the outbound queues and changes nothing else of the ring interface unit. -/
def Posts (s u : State) (marks : List (TenantId × Subject × Reason)) : Prop :=
  (∀ n, u.tenant n = (s.tenant n).withMarks n marks) ∧ u.pool = s.pool ∧ u.lastGranted = s.lastGranted

/-- A command in context `c` of tenant `t` finishes (R166, R169): command under way is cleared, its completion joins the tail of the
tenant's queue, then the happening's markers are added, and nothing else of the ring interface unit changes. -/
def Finishes (s u : State) (t : TenantId) (c : CtxId) (status : Status) (detail : Detail) (handle : Option Handle) (charge : Nat)
    (marks : List (TenantId × Subject × Reason)) : Prop :=
  ∃ x, s.context c = some x ∧ u.context c = some { x with stage := .finished } ∧ (∀ d, d ≠ c → u.context d = s.context d) ∧
    u.tenant t =
      { s.tenant t with
        underWay := false
        outbound := withMarks t marks ((s.tenant t).outbound ++
          [.completion { ctx := c, tag := recordTag x.record, kind := recordKind x.record, status := status, detail := detail
                         handle := handle, charge := charge }]) } ∧
    (∀ n, n ≠ t → u.tenant n = (s.tenant n).withMarks n marks) ∧ u.lastGranted = s.lastGranted

/-- A command of a tenant is taken and waits to be carried out, and the tenant's outbound queue takes entries (R163, R169). -/
def State.Holds (s : State) (t : TenantId) (c : CtxId) (cmd : Command) : Prop :=
  s.takenCommand t = some (c, cmd) ∧ (s.tenant t).hears = true

/-- No drain and no teardown runs. -/
def State.Steady (s : State) : Prop := s.service.isDraining = false ∧ ∀ n, (s.tenant n).state ≠ .closing

/-- A row that passes a fault of a kind at a rail to the fault unit (R99 to R102, R120): the two timeouts when their deadlines have
been reached. -/
def FaultRow (s : State) (r : RailId) (kind : FaultKind) (i : Instr) : Prop :=
  (i = .pgFall r ∧ kind = .undervoltage ∧ ((s.rail r).state = .on ∨ ∃ d, (s.rail r).state = .slewing d)) ∨
    (i = .stageFault r .overcurrent ∧ kind = .overcurrent ∧ (s.rail r).down = false) ∨
    (i = .stageFault r .overtemperature ∧ kind = .overtemperature ∧ (s.rail r).down = false) ∨
    (i = .rampDeadline r ∧ kind = .rampTimeout ∧ ∃ d, (s.rail r).state = .rising d ∧ d ≤ s.now) ∨
    (i = .slewDeadline r false ∧ kind = .slewTimeout ∧ ∃ d, (s.rail r).state = .slewing d ∧ d ≤ s.now)

/-- The lease that a queue entry names does not fit (R61, R83). -/
def State.Unfit (s : State) (e : QueueEntry) : Prop := ∃ l, s.liveLease e.handle = some l ∧ s.fits l.tenant l.charge = false

/-- A scan that stands before these entries grants none of them (R83): it skips entries that do not fit, to the last one or to one
that blocks. -/
def State.ScanEnds (s : State) (entries : List QueueEntry) : Prop :=
  ∃ skipped rest, entries = skipped ++ rest ∧ (∀ e ∈ skipped, s.Unfit e ∧ e.blocking s.passLimit = false) ∧
    ∀ e, rest.head? = some e → s.Unfit e ∧ e.blocking s.passLimit = true

/-- Another tenant's queue holds a marker for a lease (R18, R24). -/
def State.MarkedElsewhere (s : State) (n : TenantId) (h : Handle) : Prop :=
  ∃ m reason, m ≠ n ∧ .marker (.lease h) reason ∈ (s.tenant m).outbound

/-- A budget marker for every tenant (R74). -/
def budgetMarks (reason : Reason) : List (TenantId × Subject × Reason) :=
  [(0, .budget, reason), (1, .budget, reason), (2, .budget, reason), (3, .budget, reason)]

/-- The markers of a change of the available budget: none where it did not change (R56, R70, R71, R74). -/
def movedMarks (s u : State) (reason : Reason) : List (TenantId × Subject × Reason) :=
  if u.available = s.available then [] else budgetMarks reason

/-- A rail marker for the owner of a rail, if it has one (R152). -/
def ownerMarks (owner : Option TenantId) (r : RailId) (reason : Reason) : List (TenantId × Subject × Reason) :=
  match owner with
  | some t => [(t, .rail r, reason)]
  | none => []

end Sys2Proof.Machine
end

