-- ==== Sys2Proof/Certificates/Slice0/Obligations.lean ====
section
/-! DEFINITION. The statements for the provers. -/

open Sys2Proof Sys2Proof.Machine

/-! ### The step, reset and power-on -/

/-- The happening at the front of the queue is carried out, by its row's meaning, on the state with the rest of the queue. The
queue is the model's form of the order in which happenings are taken (log entry 1). -/
def Obligations.StepRunsFront : Prop :=
  ∀ (c : Instr) (rest : List Instr) (s : State), step { s with pending := c :: rest } = exec c { s with pending := rest }

/-- R191 with the rules its table names (R1, R29, R54, R57 to R59, R63, R76, R93, R98, R121, R137, R153, R164, R177): POWER_ON
puts every block into its power-on values. The model's own fields are kept (log entry 23). -/
def Obligations.PowerOnTakesPowerOnValues : Prop :=
  ∀ (sense0 sense1 sense2 : Bool) (s : State), ∃ u, exec (.powerOn sense0 sense1 sense2) s = .next u ∧
    (∀ i, u.slot i = { gen := 1, lease := none }) ∧ (∀ r, u.tierList r = []) ∧
    (∀ f, (u.feed f).capacity = 0 ∧ (u.feed f).qualify = 100) ∧
    (u.feed 0).state = (if sense0 then .qualifying (s.now + 100) else .absent) ∧
    (u.feed 1).state = (if sense1 then .qualifying (s.now + 100) else .absent) ∧
    (u.feed 2).state = (if sense2 then .qualifying (s.now + 100) else .absent) ∧
    u.margin = 0 ∧ (∀ t, u.account t = { quota := 0, maxClass := 0, charged := 0 }) ∧
    u.chargedTotal = 0 ∧ u.committedTotal = 0 ∧ u.grantOrder = [] ∧
    u.queue = [] ∧ u.passLimit = 4 ∧ u.defaultWait = 30 ∧
    (∀ r, u.config r =
      { configured := false, floor := 500, ceiling := 500, currentCeiling := 1, rampRate := 1, allowance := 1000
        discharge := 2000, retryLimit := 0, backoffBase := 10 }) ∧
    (∀ r, u.rail r = { state := .off, drive := .held 0, currentLimit := 0, lease := none }) ∧
    (∀ r, u.stagePort r = (false, 0, 0)) ∧
    (∀ r, u.faultRecord r = { count := 0, last := none, stable := none }) ∧
    (∀ r, u.owned r = { owner := none, offer := none }) ∧
    (∀ t, u.tenant t =
      { state := .closed, desc := none, head := 0, tail := 0, scanPending := false, underWay := false, inFlight := 0
        outbound := [], intPending := false, stalled := false, recheck := none, writer := none }) ∧
    (∀ t, u.interruptLine t = false) ∧ (∀ c, u.context c = none) ∧ u.lastGranted = 3 ∧
    u.service = .idle ∧ u.controlRead = none ∧ u.descriptorBase = 0 ∧ u.lastAction = .none ∧ u.outcome = .none ∧
    u.startError = .none ∧ KeepsClock s u

/-- The five laws below hold in the reset state. -/
def Obligations.LawsHoldAtReset : Prop :=
  ConfigInv State.reset ∧ TierInv State.reset ∧ OfferInv State.reset ∧ MarkerInv State.reset ∧ QueueInv State.reset

/-! ### Laws that every step keeps -/

/-- The ranges of the configuration records, generations, fault counts and DESCRIPTOR_BASE (R1, R54, R57, R58, R76, R93, R121,
R182). -/
def Obligations.StepKeepsRanges : Prop :=
  ∀ s u : State, ConfigInv s → step s = .next u → ConfigInv u

/-- Every tier of a rail's list stays inside the rail's limits (R32), and a list never grows past 6 tiers (R29). -/
def Obligations.StepKeepsTiersWithinLimits : Prop :=
  ∀ s u : State, TierInv s → step s = .next u → TierInv u

/-- The offer law (R141). -/
def Obligations.StepKeepsOfferLaw : Prop :=
  ∀ s u : State, OfferInv s → step s = .next u → OfferInv u

/-- The marker law (R170): at most one notice marker per subject in each outbound queue. -/
def Obligations.StepKeepsOneMarkerPerSubject : Prop :=
  ∀ s u : State, MarkerInv s → step s = .next u → MarkerInv u

/-- The queue's form (R76, R79): at most 8 entries, pass counts at most 15, RESTORE entries before CLAIM entries. -/
def Obligations.StepKeepsQueueForm : Prop :=
  ∀ s u : State, QueueInv s → step s = .next u → QueueInv u

/-! ### Records and registers -/

/-- A submission record written by the layouts of R195 is 64 bytes, carries its tag, and reads back as its command. -/
def Obligations.RecordsReadBack : Prop :=
  ∀ (cmd : Command) (tag : BitVec 16), cmd.fits = true →
    (cmd.write tag).length = 64 ∧ recordTag (cmd.write tag) = tag ∧ Command.read (cmd.write tag) = some cmd

/-- R180: a read of IDENT returns the same constants in every state, and a write to it (the ignored write at offset 0) changes
nothing, of either width and at either half; nor does any other write whose row is the ignored one (R199). -/
def Obligations.IdentIsConstant : Prop :=
  ∀ (s : State) (v : BitVec 64),
    s.readRegister 0 .w64 = some
      (BitVec.ofNat 64 (0x1216 + 0x6D * 2 ^ 16 + 1 * 2 ^ 24 + 12 * 2 ^ 32 + 16 * 2 ^ 40 + 24 * 2 ^ 48 + 8 * 2 ^ 56 + 3 * 2 ^ 60 +
        3 * 2 ^ 62)) ∧
      decodeRegisterWrite 0 .w64 v = some (.ignoredRegisterWrite 0 v) ∧
      decodeRegisterWrite 0 .w32 v = some (.ignoredRegisterWrite 0 v) ∧
      decodeRegisterWrite 4 .w32 v = some (.ignoredRegisterWrite 4 v) ∧
      ∀ offset, exec (.ignoredRegisterWrite offset v) s = .next s

/-! ### Claims and adjustments -/

/-- What an explicit spec is granted (R30, R33, R38): the tier it names, a voltage and a current the tier allows, and the charge of
the tier's kind. -/
def Obligations.ExplicitSpecGrants : Prop :=
  ∀ (tiers : List Tier) (k v c k' v' c' charge : Nat), grantExplicit tiers k v c = some (k', v', c', charge) ↔
    ∃ tier, tiers[k]? = some tier ∧ k' = k ∧ c' = c ∧ 1 ≤ c ∧ c ≤ tier.imax ∧
      (tier.kind = .fixed → (v = 0 ∨ v = tier.vmin) ∧ v' = tier.vmin) ∧
      (tier.kind ≠ .fixed → v' = v ∧ tier.vmin ≤ v ∧ v ≤ tier.vmax ∧ v % 10 = 0) ∧
      (tier.kind = .capped → c ≤ tier.cap * 1000 / v ∧ charge = tier.cap) ∧
      (tier.kind ≠ .capped → charge = (v' * c + 999) / 1000)

/-- A CLAIM of one explicit member that passes R35's checks, with no blocking entry queued, at a charge that fits (R42), is GRANTED
(R45): the lease of R2 in the lowest free slot, its charge in all three totals, its place at the tail of the grant order list, the
pass counts, and its rail RISING (R100). -/
def Obligations.ClaimOfOneMemberIsGranted : Prop :=
  ∀ (s : State) (t : TenantId) (c : CtxId) (a : ClaimArgs) (r : RailId) (i : SlotId) (k d v cur k' v' c' charge : Nat),
    s.Holds t c (.claim a) → s.service = .serving → a.count = 1 → a.specs = [.explicit r.val k d v cur] →
    a.cls ≤ (s.account t).maxClass → a.wait ≤ 600 →
    (s.config r).configured = true → (s.owned r).owner = some t → (s.rail r).lease = none → (s.rail r).state = .off →
    grantExplicit (s.tierList r) k v cur = some (k', v', c', charge) → s.freeSlot = some i →
    s.anyBlocking = false → s.fits t charge = true →
    ∃ u, exec (.claim t) s = .next u ∧
      u.slot i =
        { gen := (s.slot i).gen
          lease := some
            { state := .starting (.rising 0), tenant := t, cls := a.cls, resume := a.resume, short := false
              members := [{ rail := r, tier := k', auto := false, voltage := v', current := c', stepDelay := d, charge := charge
                            short := false }]
              charge := charge
              term := if a.term = 0 then none else some { length := a.term, deadline := s.now + 1000 * a.term }
              count := 0 } } ∧
      KeepsOtherSlots s u i ∧
      u.chargedTotal = s.chargedTotal + charge ∧ u.committedTotal = s.committedTotal + charge ∧
      (∀ n, u.account n = if n = t then { s.account t with charged := (s.account t).charged + charge } else s.account n) ∧
      u.grantOrder = s.grantOrder ++ [s.handleOf i] ∧ u.feeds = s.feeds ∧ u.margin = s.margin ∧
      u.queue = s.queue.map QueueEntry.passed ∧ u.passLimit = s.passLimit ∧ u.defaultWait = s.defaultWait ∧
      u.rail r =
        { state := .rising (s.now + (v' + (s.config r).rampRate - 1) / (s.config r).rampRate + (s.config r).allowance)
          drive := .moving 0 v' (s.config r).rampRate s.now, currentLimit := c', lease := some (s.handleOf i) } ∧
      u.faultRecord r = s.faultRecord r ∧ KeepsOtherRails s u r ∧ KeepsTiers s u ∧ KeepsOwners s u ∧ KeepsService s u ∧
      KeepsClock s u ∧ Finishes s u t c .granted .none (some (s.handleOf i)) charge []

/-- The same CLAIM, at a charge that does not fit now but can fit later, without NO_WAIT and with room in the queue, is DEFERRED
(R43, R44, R46): a WAITING lease that holds no charge, and a CLAIM entry at the tail of the queue. -/
def Obligations.ClaimOfOneMemberIsDeferred : Prop :=
  ∀ (s : State) (t : TenantId) (c : CtxId) (a : ClaimArgs) (r : RailId) (i : SlotId) (k d v cur k' v' c' charge : Nat),
    s.Holds t c (.claim a) → s.service = .serving → a.count = 1 → a.specs = [.explicit r.val k d v cur] →
    a.cls ≤ (s.account t).maxClass → a.wait ≤ 600 →
    (s.config r).configured = true → (s.owned r).owner = some t → (s.rail r).lease = none → (s.rail r).state = .off →
    grantExplicit (s.tierList r) k v cur = some (k', v', c', charge) → s.freeSlot = some i →
    (s.anyBlocking = true ∨ s.fits t charge = false) → s.neverFits t charge = false → a.noWait = false → s.queue.length < 8 →
    ∃ u, exec (.claim t) s = .next u ∧
      u.slot i =
        { gen := (s.slot i).gen
          lease := some
            { state := .waiting, tenant := t, cls := a.cls, resume := a.resume, short := false
              members := [{ rail := r, tier := k', auto := false, voltage := v', current := c', stepDelay := d, charge := charge
                            short := false }]
              charge := charge
              term := if a.term = 0 then none else some { length := a.term, deadline := s.now + 1000 * a.term }
              count := 0 } } ∧
      KeepsOtherSlots s u i ∧ KeepsBudget s u ∧
      u.queue = s.queue ++
        [{ handle := s.handleOf i, kind := .claim (s.now + 1000 * (if a.wait = 0 then s.defaultWait else a.wait)) 0 }] ∧
      u.passLimit = s.passLimit ∧ u.defaultWait = s.defaultWait ∧
      u.rail r = { s.rail r with lease := some (s.handleOf i) } ∧ u.faultRecord r = s.faultRecord r ∧
      KeepsOtherRails s u r ∧ KeepsTiers s u ∧ KeepsOwners s u ∧ KeepsService s u ∧ KeepsClock s u ∧
      Finishes s u t c .deferred .none (some (s.handleOf i)) charge []

/-- An ADJUST of a one-member ACTIVE lease that changes its tier or current and not its voltage, at a charge that does not fall
(R49, R50): the new values and charge stand at once, a raise is charged, and the stage gets its new current limit. -/
def Obligations.AdjustOfCurrentIsImmediate : Prop :=
  ∀ (s : State) (t : TenantId) (c : CtxId) (w : Nat) (r : RailId) (l : Lease) (m : Member) (k d v cur c' charge : Nat),
    s.Holds t c (.adjust w 1 [.explicit r.val k d v cur]) → s.service = .serving →
    s.liveLease (handleOfWord w) = some l → l.tenant = t → l.state = .active → l.members = [m] → m.rail = r →
    grantExplicit (s.tierList r) k v cur = some (k, m.voltage, c', charge) → (k ≠ m.tier ∨ c' ≠ m.current) →
    l.charge ≤ charge → (l.charge < charge → s.fits t (charge - l.charge) = true) →
    ∃ u, exec (.adjust t) s = .next u ∧
      u.slot (handleOfWord w).slot =
        { gen := (handleOfWord w).gen
          lease := some
            { l with members := [{ m with tier := k, current := c', charge := charge }], charge := charge
                     count := l.count + 1 } } ∧
      KeepsOtherSlots s u (handleOfWord w).slot ∧
      u.chargedTotal = s.chargedTotal + (charge - l.charge) ∧ u.committedTotal = s.committedTotal + (charge - l.charge) ∧
      (∀ n, u.account n =
        if n = t then { s.account t with charged := (s.account t).charged + (charge - l.charge) } else s.account n) ∧
      u.grantOrder = s.grantOrder ∧ u.feeds = s.feeds ∧ u.margin = s.margin ∧ KeepsQueue s u ∧
      u.rail r = { s.rail r with currentLimit := c' } ∧ u.faultRecord r = s.faultRecord r ∧ KeepsOtherRails s u r ∧
      KeepsTiers s u ∧ KeepsOwners s u ∧ KeepsService s u ∧ KeepsClock s u ∧
      Finishes s u t c .ok .none (some (handleOfWord w)) charge [(t, .lease (handleOfWord w), .adjusted)]

/-- An ADJUST of a one-member ACTIVE lease that changes its voltage (R49, R51, R101, R109): the lease is ADJUSTING at the greater
charge with its old values, and its ON rail is SLEWING to the new voltage at its new current limit. The change count advances
once, for the change of state and the accepted ADJUST together (R16, log entry 29). -/
def Obligations.AdjustOfVoltageSlews : Prop :=
  ∀ (s : State) (t : TenantId) (c : CtxId) (w : Nat) (r : RailId) (l : Lease) (m : Member) (k d v cur v' c' charge : Nat),
    s.Holds t c (.adjust w 1 [.explicit r.val k d v cur]) → s.service = .serving →
    s.liveLease (handleOfWord w) = some l → l.tenant = t → l.state = .active → l.members = [m] → m.rail = r →
    (s.rail r).state = .on → (s.rail r).drive = .held m.voltage →
    grantExplicit (s.tierList r) k v cur = some (k, v', c', charge) → v' ≠ m.voltage →
    (l.charge < charge → s.fits t (charge - l.charge) = true) →
    ∃ u, exec (.adjust t) s = .next u ∧
      u.slot (handleOfWord w).slot =
        { gen := (handleOfWord w).gen
          lease := some
            { l with
              state := .adjusting
                { changes := [{ member := 0, tier := k, voltage := v', current := c', charge := charge }], newCharge := charge
                  slewing := [0] }
              charge := max l.charge charge, count := l.count + 1 } } ∧
      KeepsOtherSlots s u (handleOfWord w).slot ∧
      u.chargedTotal = s.chargedTotal + (charge - l.charge) ∧ u.committedTotal = s.committedTotal + (charge - l.charge) ∧
      (∀ n, u.account n =
        if n = t then { s.account t with charged := (s.account t).charged + (charge - l.charge) } else s.account n) ∧
      u.grantOrder = s.grantOrder ∧ u.feeds = s.feeds ∧ u.margin = s.margin ∧ KeepsQueue s u ∧
      u.rail r =
        { s.rail r with
          state := .slewing (s.now +
            (((m.voltage - v') + (v' - m.voltage)) + (s.config r).rampRate - 1) / (s.config r).rampRate + (s.config r).allowance)
          drive := .moving m.voltage v' (s.config r).rampRate s.now, currentLimit := c' } ∧
      u.faultRecord r = { s.faultRecord r with stable := none } ∧ KeepsOtherRails s u r ∧
      KeepsTiers s u ∧ KeepsOwners s u ∧ KeepsService s u ∧ KeepsClock s u ∧
      Finishes s u t c .ok .none (some (handleOfWord w)) charge [(t, .lease (handleOfWord w), .adjusting)]

/-! ### Ending and stopping leases -/

/-- RELEASE by the lease's tenant and REVOKE by the admin tenant end a WAITING or SUSPENDED lease at once (R12, R13, R22, R23): its
entry leaves the queue, its rails are free, and no total changes. -/
def Obligations.ReleaseAndRevokeEndWaitingLeases : Prop :=
  ∀ (s : State) (i : Instr) (t : TenantId) (c : CtxId) (cmd : Command) (w : Nat) (l : Lease) (reason : EndReason),
    (i = .release t ∧ cmd = .release w ∧ reason = .released ∧ l.tenant = t) ∨
      (i = .revoke ∧ cmd = .revoke w ∧ reason = .revoked ∧ t = admin) →
    s.Holds t c cmd → s.Steady → s.liveLease (handleOfWord w) = some l → (l.state = .waiting ∨ l.state = .suspended) →
    (s.tenant l.tenant).hears = true →
    ∃ u, exec i s = .next u ∧
      u.slot (handleOfWord w).slot =
        { gen := (handleOfWord w).gen, lease := some { l with state := .ended reason, term := none, count := l.count + 1 } } ∧
      KeepsOtherSlots s u (handleOfWord w).slot ∧ KeepsBudget s u ∧
      u.queue = s.queue.filter (fun e => e.handle ≠ handleOfWord w) ∧ u.passLimit = s.passLimit ∧
      u.defaultWait = s.defaultWait ∧
      (∀ r, u.rail r = if r ∈ l.members.map Member.rail then { s.rail r with lease := none } else s.rail r) ∧
      u.railConfig = s.railConfig ∧ u.faults = s.faults ∧ KeepsTiers s u ∧ KeepsOwners s u ∧ KeepsService s u ∧
      KeepsClock s u ∧ Finishes s u t c .ok .none none 0 [(l.tenant, .lease (handleOfWord w), .ended)]

/-- RELEASE and REVOKE stop a running lease (R9, R22, R23, R60, R102, R112): STOPPING, SEQUENCED, with its member in turn, the
highest-indexed one whose rail is not down, FALLING; it leaves the committed total and the grant order list, and keeps its charge in
the charged total. The voltage held in FALLING is the one the ramp has reached (log entry 15). -/
def Obligations.ReleaseAndRevokeStopRunningLeases : Prop :=
  ∀ (s : State) (i : Instr) (t : TenantId) (c : CtxId) (cmd : Command) (w : Nat) (l : Lease) (k : Nat) (m : Member)
    (cause : StopCause),
    (i = .release t ∧ cmd = .release w ∧ cause = .released ∧ l.tenant = t) ∨
      (i = .revoke ∧ cmd = .revoke w ∧ cause = .revoked ∧ t = admin) →
    s.Holds t c cmd → s.liveLease (handleOfWord w) = some l → (l.state = .active ∨ ∃ p, l.state = .starting p) →
    l.members[k]? = some m → (s.rail m.rail).powered = true →
    (∀ j n, k < j → l.members[j]? = some n → (s.rail n.rail).down = true) →
    ∃ u, exec i s = .next u ∧
      u.slot (handleOfWord w).slot =
        { gen := (handleOfWord w).gen
          lease := some
            { l with
              state := .stopping
                { cause := cause, mode := .sequenced, faulted := [], firstFault := none, suspendMark := false, inTurn := some k }
              count := l.count + 1 } } ∧
      KeepsOtherSlots s u (handleOfWord w).slot ∧
      u.chargedTotal = s.chargedTotal ∧ u.committedTotal = s.committedTotal - l.charge ∧ u.accounts = s.accounts ∧
      u.grantOrder = s.grantOrder.filter (fun h => h ≠ handleOfWord w) ∧ u.feeds = s.feeds ∧ u.margin = s.margin ∧
      KeepsQueue s u ∧
      u.rail m.rail =
        { s.rail m.rail with
          state := .falling (s.now + (s.config m.rail).discharge), drive := .held ((s.rail m.rail).drive.at s.now) } ∧
      u.faultRecord m.rail = { s.faultRecord m.rail with stable := none } ∧ KeepsOtherRails s u m.rail ∧
      KeepsTiers s u ∧ KeepsOwners s u ∧ KeepsService s u ∧ KeepsClock s u ∧
      Finishes s u t c .ok .none none 0 [(l.tenant, .lease (handleOfWord w), .stopping)]

/-- R20: RENEW is allowed in SERVING alone; its three checks in order; and a RENEW that passes them sets or removes the term, while
neither the change count nor a marker moves. -/
def Obligations.RenewSetsTheTerm : Prop :=
  ∀ (s : State) (t : TenantId) (c : CtxId) (w term : Nat), s.Holds t c (.renew w term) →
    (∀ service, (Command.renew w term).allowed service = true ↔ service = .serving) ∧
    (∀ status : Status,
      (s.liveLease (handleOfWord w) = none ∧ status = .noSuchLease) ∨
        (∃ l, s.liveLease (handleOfWord w) = some l ∧ l.tenant ≠ t ∧ status = .notOwner) ∨
        (∃ l, s.liveLease (handleOfWord w) = some l ∧ l.tenant = t ∧ l.stop?.isSome = true ∧ status = .leaseBusy) →
      ∃ u, exec (.renew t) s = .next u ∧ KeepsLeases s u ∧ KeepsBudget s u ∧ KeepsQueue s u ∧ KeepsRails s u ∧ KeepsTiers s u ∧
        KeepsOwners s u ∧ KeepsService s u ∧ KeepsClock s u ∧ Finishes s u t c status .none none 0 []) ∧
    (∀ l, s.liveLease (handleOfWord w) = some l → l.tenant = t → l.stop? = none →
      ∃ u, exec (.renew t) s = .next u ∧
        u.slot (handleOfWord w).slot =
          { gen := (handleOfWord w).gen
            lease := some
              { l with term := if term = 0 then none else some { length := term, deadline := s.now + 1000 * term } } } ∧
        KeepsOtherSlots s u (handleOfWord w).slot ∧ KeepsBudget s u ∧ KeepsQueue s u ∧ KeepsRails s u ∧ KeepsTiers s u ∧
        KeepsOwners s u ∧ KeepsService s u ∧ KeepsClock s u ∧ Finishes s u t c .ok .none none 0 [])

/-- LAPSE at the term deadline and WAIT_DEADLINE at a CLAIM entry's wait deadline end a WAITING lease (R12, R21, R87); LAPSE ends a
SUSPENDED one too. Neither happens before its deadline, so a LAPSE that a RENEW has put off, or whose term it has removed, changes
nothing in any state of the lease (R21, log entry 3). -/
def Obligations.DeadlinesEndWaitingLeases : Prop :=
  ∀ (s : State) (h : Handle) (l : Lease), s.liveLease h = some l →
    (l.term = none → exec (.lapse h) s = .next s) ∧
    (∀ n d, l.term = some { length := n, deadline := d } → s.now < d → exec (.lapse h) s = .next s) ∧
    (∀ n d, s.queue.find? (fun e => e.handle = h) = some { handle := h, kind := .claim d n } → s.now < d →
      exec (.waitDeadline h) s = .next s) ∧
    (∀ (i : Instr) (d : Nat) (reason : EndReason),
      (i = .lapse h ∧ reason = .lapsed ∧ (∃ n, l.term = some { length := n, deadline := d }) ∧
          (l.state = .waiting ∨ l.state = .suspended)) ∨
        (i = .waitDeadline h ∧ reason = .waitExpired ∧ l.state = .waiting ∧
          ∃ n, s.queue.find? (fun e => e.handle = h) = some { handle := h, kind := .claim d n }) →
      d ≤ s.now → s.Steady → (s.tenant l.tenant).hears = true →
      ∃ u, exec i s = .next u ∧
        u.slot h.slot = { gen := h.gen, lease := some { l with state := .ended reason, term := none, count := l.count + 1 } } ∧
        KeepsOtherSlots s u h.slot ∧ KeepsBudget s u ∧
        u.queue = s.queue.filter (fun e => e.handle ≠ h) ∧ u.passLimit = s.passLimit ∧ u.defaultWait = s.defaultWait ∧
        (∀ r, u.rail r = if r ∈ l.members.map Member.rail then { s.rail r with lease := none } else s.rail r) ∧
        u.railConfig = s.railConfig ∧ u.faults = s.faults ∧ KeepsTiers s u ∧ KeepsOwners s u ∧ KeepsService s u ∧
        KeepsClock s u ∧ Posts s u [(l.tenant, .lease h, .ended)])

/-! ### The start sequence, slews and falls -/

/-- PG_RISE turns the rising member of a STARTING lease ON (R96, R99, R100, R106, R129): its step delay starts or, at 0 ms, ends at
once, and the next member rises in the same happening, or the lease is ACTIVE after the last (R106, R107). STEP_DELAY_END does the
same at the end of a step delay, and nothing before it (log entry 3). -/
def Obligations.StartSequenceAdvances : Prop :=
  ∀ (s : State) (h : Handle) (l : Lease) (k : Nat), s.liveLease h = some l →
    (∀ (r : RailId) (m : Member), (∃ d, (s.rail r).state = .rising d) → (s.rail r).lease = some h →
      l.state = .starting (.rising k) → l.members[k]? = some m → m.rail = r →
      (m.stepDelay ≠ 0 ∨ k + 1 = l.members.length) →
      ∃ u, exec (.pgRise r) s = .next u ∧
        u.rail r = { s.rail r with state := .on, drive := .held (s.rail r).drive.target } ∧
        u.faultRecord r = { s.faultRecord r with stable := some (s.now + 2000) } ∧ KeepsOtherRails s u r ∧
        u.slot h.slot =
          { gen := h.gen
            lease := some
              (if m.stepDelay = 0 then { l with state := .active, count := l.count + 1 }
                else { l with state := .starting (.delay k (s.now + m.stepDelay)) }) } ∧
        KeepsOtherSlots s u h.slot ∧ KeepsBudget s u ∧ KeepsQueue s u ∧ KeepsTiers s u ∧ KeepsOwners s u ∧
        KeepsService s u ∧ KeepsClock s u ∧ Posts s u (if m.stepDelay = 0 then [(l.tenant, .lease h, .active)] else [])) ∧
    (∀ (r : RailId) (m n : Member), (∃ d, (s.rail r).state = .rising d) → (s.rail r).lease = some h →
      l.state = .starting (.rising k) → l.members[k]? = some m → m.rail = r → m.stepDelay = 0 →
      l.members[k + 1]? = some n → (s.rail n.rail).state = .off →
      ∃ u, exec (.pgRise r) s = .next u ∧
        u.rail r = { s.rail r with state := .on, drive := .held (s.rail r).drive.target } ∧
        u.faultRecord r = { s.faultRecord r with stable := some (s.now + 2000) } ∧
        u.rail n.rail =
          { s.rail n.rail with
            state := .rising (s.now + (n.voltage + (s.config n.rail).rampRate - 1) / (s.config n.rail).rampRate +
              (s.config n.rail).allowance)
            drive := .moving 0 n.voltage (s.config n.rail).rampRate s.now, currentLimit := n.current } ∧
        u.faultRecord n.rail = s.faultRecord n.rail ∧ u.railConfig = s.railConfig ∧
        (∀ q, q ≠ r → q ≠ n.rail → u.rail q = s.rail q ∧ u.faultRecord q = s.faultRecord q) ∧
        u.slot h.slot = { gen := h.gen, lease := some { l with state := .starting (.rising (k + 1)) } } ∧
        KeepsOtherSlots s u h.slot ∧ KeepsBudget s u ∧ KeepsQueue s u ∧ KeepsTiers s u ∧ KeepsOwners s u ∧
        KeepsRings s u ∧ KeepsService s u ∧ KeepsClock s u) ∧
    (∀ d : Nat, l.state = .starting (.delay k d) →
      (s.now < d → exec (.stepDelayEnd h) s = .next s) ∧
      (d ≤ s.now → k + 1 = l.members.length →
        ∃ u, exec (.stepDelayEnd h) s = .next u ∧
          u.slot h.slot = { gen := h.gen, lease := some { l with state := .active, count := l.count + 1 } } ∧
          KeepsOtherSlots s u h.slot ∧ KeepsBudget s u ∧ KeepsQueue s u ∧ KeepsRails s u ∧ KeepsTiers s u ∧
          KeepsOwners s u ∧ KeepsService s u ∧ KeepsClock s u ∧ Posts s u [(l.tenant, .lease h, .active)]) ∧
      (∀ m : Member, d ≤ s.now → l.members[k + 1]? = some m → (s.rail m.rail).state = .off →
        ∃ u, exec (.stepDelayEnd h) s = .next u ∧
          u.slot h.slot = { gen := h.gen, lease := some { l with state := .starting (.rising (k + 1)) } } ∧
          KeepsOtherSlots s u h.slot ∧
          u.rail m.rail =
            { s.rail m.rail with
              state := .rising (s.now + (m.voltage + (s.config m.rail).rampRate - 1) / (s.config m.rail).rampRate +
                (s.config m.rail).allowance)
              drive := .moving 0 m.voltage (s.config m.rail).rampRate s.now, currentLimit := m.current } ∧
          u.faultRecord m.rail = s.faultRecord m.rail ∧ KeepsOtherRails s u m.rail ∧ KeepsBudget s u ∧ KeepsQueue s u ∧
          KeepsTiers s u ∧ KeepsOwners s u ∧ KeepsRings s u ∧ KeepsService s u ∧ KeepsClock s u))

/-- SLEW_DEADLINE with power-good high, at the one slewing member of a one-member ADJUSTING lease, with no deferred queue to scan
where the charge falls (R15, R52, R99, R110, R129): the rail is ON, the new values stand, and the lease is ACTIVE at its new
charge. Before the deadline it changes nothing, whatever the power-good level (log entry 3). -/
def Obligations.SlewDeadlineSettlesTheAdjustment : Prop :=
  ∀ (s : State) (r : RailId) (d : Nat), (s.rail r).state = .slewing d →
    (s.now < d → ∀ pgHigh, exec (.slewDeadline r pgHigh) s = .next s) ∧
    (∀ (h : Handle) (l : Lease) (m : Member) (a : Adjustment) (v : MemberChange),
      d ≤ s.now → (s.rail r).lease = some h → s.liveLease h = some l → l.members = [m] → m.rail = r →
      l.state = .adjusting a → a.slewing = [0] → a.changes = [v] → v.member = 0 → (a.newCharge < l.charge → s.queue = []) →
      ∃ u, exec (.slewDeadline r true) s = .next u ∧
        u.rail r = { s.rail r with state := .on, drive := .held (s.rail r).drive.target } ∧
        u.faultRecord r = { s.faultRecord r with stable := some (s.now + 2000) } ∧ KeepsOtherRails s u r ∧
        u.slot h.slot =
          { gen := h.gen
            lease := some
              { l with
                state := .active
                members := [{ m with tier := v.tier, voltage := v.voltage, current := v.current, charge := v.charge }]
                charge := a.newCharge, count := l.count + 1 } } ∧
        KeepsOtherSlots s u h.slot ∧
        u.chargedTotal = s.chargedTotal - (l.charge - a.newCharge) ∧
        u.committedTotal = s.committedTotal - (l.charge - a.newCharge) ∧
        (∀ n, u.account n =
          if n = l.tenant then { s.account n with charged := (s.account n).charged - (l.charge - a.newCharge) }
          else s.account n) ∧
        u.grantOrder = s.grantOrder ∧ u.feeds = s.feeds ∧ u.margin = s.margin ∧ KeepsQueue s u ∧ KeepsTiers s u ∧
        KeepsOwners s u ∧ KeepsService s u ∧ KeepsClock s u ∧ Posts s u [(l.tenant, .lease h, .active)])

/-- The bottom of the fall of a rail that is in no live lease (R96, R102, R103, R127, R128): after LOW_REACHED it is LOCKED where
its fault count is above its retry limit, and OFF otherwise; at DISCHARGE_DEADLINE a DISCHARGE_TIMEOUT is counted and it is
LOCKED. Its owner is told of a lock (R152). Before the deadline DISCHARGE_DEADLINE changes nothing, for a rail in a lease too (log
entry 3). -/
def Obligations.FallOfAFreeRailEnds : Prop :=
  ∀ (s : State) (r : RailId) (d : Nat), (s.rail r).state = .falling d →
    (s.now < d → exec (.dischargeDeadline r) s = .next s) ∧
    ((s.rail r).lease = none →
      ∃ u, exec (.lowReached r) s = .next u ∧
        u.rail r =
          { state := if (s.config r).retryLimit < (s.faultRecord r).count then .locked else .off, drive := .held 0
            currentLimit := 0, lease := none } ∧
        u.faultRecord r = s.faultRecord r ∧ KeepsOtherRails s u r ∧ KeepsLeases s u ∧ KeepsBudget s u ∧ KeepsQueue s u ∧
        KeepsTiers s u ∧ KeepsOwners s u ∧ KeepsService s u ∧ KeepsClock s u ∧
        Posts s u (if (s.config r).retryLimit < (s.faultRecord r).count then ownerMarks (s.owned r).owner r .locked else [])) ∧
    ((s.rail r).lease = none → d ≤ s.now →
      ∃ u, exec (.dischargeDeadline r) s = .next u ∧
        u.rail r = { state := .locked, drive := .held 0, currentLimit := 0, lease := none } ∧
        u.faultRecord r = { count := min 15 ((s.faultRecord r).count + 1), last := some .dischargeTimeout, stable := none } ∧
        KeepsOtherRails s u r ∧ KeepsLeases s u ∧ KeepsBudget s u ∧ KeepsQueue s u ∧ KeepsTiers s u ∧ KeepsOwners s u ∧
        KeepsService s u ∧ KeepsClock s u ∧ Posts s u (ownerMarks (s.owned r).owner r .locked))

/-- LOW_REACHED at a member of a STOPPING lease, where the rail is not to be LOCKED (R102, R113, R116). (1) Where it was the last
not down, the stop is complete: with a cause other than FAULT and no suspend mark, and an empty deferred queue, the lease is ENDED
with the reason of the cause, its members' rails are free, and its charge leaves the charged totals (R11 to R13, R17, R60, R130).
(2) Where it was the member in turn and others are not down, the highest-indexed of them is the next in turn: a powered one goes
FALLING, a FALLING one is waited for. (3) Out of turn, with others not down, the rail is OFF and nothing else changes. The voltage
held in FALLING is the one the ramp has reached (log entry 15). -/
def Obligations.LowReachedEndsAStop : Prop :=
  ∀ (s : State) (r : RailId) (d : Nat) (h : Handle) (l : Lease) (stop : StopRecord),
    (s.rail r).state = .falling d → (s.rail r).lease = some h → s.liveLease h = some l → r ∈ l.members.map Member.rail →
    l.state = .stopping stop → (s.faultRecord r).count ≤ (s.config r).retryLimit →
    (∀ reason : EndReason, (∀ m ∈ l.members, m.rail ≠ r → (s.rail m.rail).down = true) → stop.suspendMark = false →
      (stop.cause, reason) ∈ [(.released, .released), (.revoked, .revoked), (.lapsed, .lapsed), (.shed, .shed),
        (.tenantClosed, .tenantClosed), (.serviceStopped, .serviceStopped), (.emergency, .emergency)] →
      s.queue = [] → s.Steady → (s.tenant l.tenant).hears = true →
      ∃ u, exec (.lowReached r) s = .next u ∧
        u.rail r = { state := .off, drive := .held 0, currentLimit := 0, lease := none } ∧
        (∀ q, q ≠ r →
          u.rail q = if q ∈ l.members.map Member.rail then { s.rail q with lease := none } else s.rail q) ∧
        u.railConfig = s.railConfig ∧ u.faults = s.faults ∧
        u.slot h.slot = { gen := h.gen, lease := some { l with state := .ended reason, term := none, count := l.count + 1 } } ∧
        KeepsOtherSlots s u h.slot ∧
        u.chargedTotal = s.chargedTotal - l.charge ∧ u.committedTotal = s.committedTotal ∧
        (∀ n, u.account n =
          if n = l.tenant then { s.account n with charged := (s.account n).charged - l.charge } else s.account n) ∧
        u.grantOrder = s.grantOrder ∧ u.feeds = s.feeds ∧ u.margin = s.margin ∧ KeepsQueue s u ∧ KeepsTiers s u ∧
        KeepsOwners s u ∧ KeepsService s u ∧ KeepsClock s u ∧ Posts s u [(l.tenant, .lease h, .ended)]) ∧
    (∀ (k j : Nat) (m n : Member), stop.inTurn = some k → l.members[k]? = some m → m.rail = r →
      l.members[j]? = some n → n.rail ≠ r → (s.rail n.rail).down = false →
      (∀ i x, j < i → l.members[i]? = some x → x.rail = r ∨ (s.rail x.rail).down = true) →
      ∃ u, exec (.lowReached r) s = .next u ∧
        u.rail r = { s.rail r with state := .off, drive := .held 0, currentLimit := 0 } ∧
        u.faultRecord r = s.faultRecord r ∧
        u.rail n.rail =
          (if (s.rail n.rail).powered then
            { s.rail n.rail with
              state := .falling (s.now + (s.config n.rail).discharge), drive := .held ((s.rail n.rail).drive.at s.now) }
          else s.rail n.rail) ∧
        u.faultRecord n.rail =
          (if (s.rail n.rail).powered then { s.faultRecord n.rail with stable := none } else s.faultRecord n.rail) ∧
        (∀ q, q ≠ r → q ≠ n.rail → u.rail q = s.rail q ∧ u.faultRecord q = s.faultRecord q) ∧ u.railConfig = s.railConfig ∧
        u.slot h.slot = { gen := h.gen, lease := some { l with state := .stopping { stop with inTurn := some j } } } ∧
        KeepsOtherSlots s u h.slot ∧ KeepsBudget s u ∧ KeepsQueue s u ∧ KeepsTiers s u ∧ KeepsOwners s u ∧ KeepsRings s u ∧
        KeepsService s u ∧ KeepsClock s u) ∧
    ((∀ k, stop.inTurn = some k → (l.members[k]?).map Member.rail ≠ some r) →
      (∃ n ∈ l.members, n.rail ≠ r ∧ (s.rail n.rail).down = false) →
      ∃ u, exec (.lowReached r) s = .next u ∧
        u.rail r = { s.rail r with state := .off, drive := .held 0, currentLimit := 0 } ∧
        u.faultRecord r = s.faultRecord r ∧ KeepsOtherRails s u r ∧ KeepsLeases s u ∧ KeepsBudget s u ∧ KeepsQueue s u ∧
        KeepsTiers s u ∧ KeepsOwners s u ∧ KeepsRings s u ∧ KeepsService s u ∧ KeepsClock s u)

/-! ### Faults and retries -/

/-- The five rows that bring a fault (R99 to R102, R120 to R124, R129). (1) At the powered rail of a running lease of one member (R9,
R52, R60, R112): the fault is counted, the rail is FALLING, and the lease is STOPPING with cause FAULT, its faulted set and first
fault kind; it leaves the committed total and the grant order list. `n` and `charge` are the member and the lease's charge after a
pending adjustment is resolved (R15): a charge that falls is credited at once in the three totals, here with an empty deferred
queue. (2) At a rail of a lease already STOPPING (R124): the fault is counted, a powered rail is FALLING and a FALLING one stays so,
the faulted set takes the rail once, a first fault kind that is present is kept, and nothing else changes: no count, no marker. (3)
RAMP_DEADLINE changes nothing before its deadline (log entry 3; SlewDeadlineSettlesTheAdjustment says so of SLEW_DEADLINE). The
voltage held in FALLING is the one the ramp has reached (log entry 15). -/
def Obligations.FaultStopsTheLease : Prop :=
  ∀ (s : State) (r : RailId),
    (∀ d, (s.rail r).state = .rising d → s.now < d → exec (.rampDeadline r) s = .next s) ∧
    (∀ (i : Instr) (kind : FaultKind) (h : Handle) (l : Lease), FaultRow s r kind i → (s.rail r).lease = some h →
      s.liveLease h = some l →
      (∀ (m n : Member) (charge : Nat), (s.rail r).powered = true → l.members = [m] → m.rail = r →
        (((l.state = .active ∨ ∃ p, l.state = .starting p) ∧ n = m ∧ charge = l.charge) ∨
          ∃ a v, l.state = .adjusting a ∧ a.changes = [v] ∧ v.member = 0 ∧ charge = a.newCharge ∧
            n = { m with tier := v.tier, voltage := v.voltage, current := v.current, charge := v.charge }) →
        charge ≤ l.charge → (charge < l.charge → s.queue = []) →
        ∃ u, exec i s = .next u ∧
          u.rail r =
            { s.rail r with
              state := .falling (s.now + (s.config r).discharge), drive := .held ((s.rail r).drive.at s.now) } ∧
          u.faultRecord r = { count := min 15 ((s.faultRecord r).count + 1), last := some kind, stable := none } ∧
          KeepsOtherRails s u r ∧
          u.slot h.slot =
            { gen := h.gen
              lease := some
                { l with
                  state := .stopping
                    { cause := .fault, mode := .sequenced, faulted := [r], firstFault := some kind, suspendMark := false
                      inTurn := some 0 }
                  members := [n], charge := charge, count := l.count + 1 } } ∧
          KeepsOtherSlots s u h.slot ∧
          u.chargedTotal = s.chargedTotal - (l.charge - charge) ∧ u.committedTotal = s.committedTotal - l.charge ∧
          (∀ x, u.account x =
            if x = l.tenant then { s.account x with charged := (s.account x).charged - (l.charge - charge) }
            else s.account x) ∧
          u.grantOrder = s.grantOrder.filter (fun x => x ≠ h) ∧ u.feeds = s.feeds ∧ u.margin = s.margin ∧ KeepsQueue s u ∧
          KeepsTiers s u ∧ KeepsOwners s u ∧ KeepsService s u ∧ KeepsClock s u ∧
          Posts s u [(l.tenant, .lease h, .stopping)]) ∧
      (∀ stop : StopRecord, l.state = .stopping stop →
        ∃ u, exec i s = .next u ∧
          u.rail r =
            (if (s.rail r).powered then
              { s.rail r with
                state := .falling (s.now + (s.config r).discharge), drive := .held ((s.rail r).drive.at s.now) }
            else s.rail r) ∧
          u.faultRecord r = { count := min 15 ((s.faultRecord r).count + 1), last := some kind, stable := none } ∧
          KeepsOtherRails s u r ∧
          u.slot h.slot =
            { gen := h.gen
              lease := some
                { l with
                  state := .stopping
                    { stop with
                      faulted := if r ∈ stop.faulted then stop.faulted else stop.faulted ++ [r]
                      firstFault := some (stop.firstFault.getD kind) } } } ∧
          KeepsOtherSlots s u h.slot ∧ KeepsBudget s u ∧ KeepsQueue s u ∧ KeepsTiers s u ∧ KeepsOwners s u ∧
          KeepsRings s u ∧ KeepsService s u ∧ KeepsClock s u))

/-- A FAULT stop of a one-member lease completes while its rail is not LOCKED (R11, R60, R63, R69, R130, R131). (1) With no term
passed and a charge that fits the committed total, the lease waits in RETRY_WAIT for the backoff, committed again at the tail of the
grant order list. (2) With its term's deadline passed and such a charge, it passes through RETRY_WAIT and is ENDED with LAPSED in the
same happening, its charge credited, here with an empty deferred queue. (3) With its term's deadline passed it is ENDED with LAPSED
whatever its charge, the queue and a shed pass in the same happening. -/
def Obligations.FaultStopRetries : Prop :=
  ∀ (s : State) (r : RailId) (d : Nat) (h : Handle) (l : Lease) (m : Member) (stop : StopRecord),
    (s.rail r).state = .falling d → (s.rail r).lease = some h → s.liveLease h = some l → l.members = [m] → m.rail = r →
    l.state = .stopping stop → stop.cause = .fault → stop.faulted = [r] →
    (s.faultRecord r).count ≤ (s.config r).retryLimit → s.Steady →
    ((∀ t, l.term = some t → s.now < t.deadline) → s.committedTotal + l.charge ≤ s.available →
      ∃ u, exec (.lowReached r) s = .next u ∧
        u.rail r = { state := .off, drive := .held 0, currentLimit := 0, lease := some h } ∧
        u.faultRecord r = s.faultRecord r ∧ KeepsOtherRails s u r ∧
        u.slot h.slot =
          { gen := h.gen
            lease := some
              { l with
                state := .retryWait
                  (s.now + min 30000 ((s.config r).backoffBase * 2 ^ ((s.faultRecord r).count - 1)))
                count := l.count + 1 } } ∧
        KeepsOtherSlots s u h.slot ∧
        u.chargedTotal = s.chargedTotal ∧ u.committedTotal = s.committedTotal + l.charge ∧ u.accounts = s.accounts ∧
        u.grantOrder = s.grantOrder ++ [h] ∧ u.feeds = s.feeds ∧ u.margin = s.margin ∧ KeepsQueue s u ∧ KeepsTiers s u ∧
        KeepsOwners s u ∧ KeepsService s u ∧ KeepsClock s u ∧ Posts s u [(l.tenant, .lease h, .retryWait)]) ∧
    (∀ t, l.term = some t → t.deadline ≤ s.now → (s.tenant l.tenant).hears = true →
      (s.committedTotal + l.charge ≤ s.available → s.queue = [] →
        ∃ u, exec (.lowReached r) s = .next u ∧
          u.rail r = { state := .off, drive := .held 0, currentLimit := 0, lease := none } ∧
          u.faultRecord r = s.faultRecord r ∧ KeepsOtherRails s u r ∧
          u.slot h.slot = { gen := h.gen, lease := some { l with state := .ended .lapsed, term := none, count := l.count + 2 } } ∧
          KeepsOtherSlots s u h.slot ∧
          u.chargedTotal = s.chargedTotal - l.charge ∧ u.committedTotal = s.committedTotal ∧
          (∀ n, u.account n =
            if n = l.tenant then { s.account n with charged := (s.account n).charged - l.charge } else s.account n) ∧
          u.grantOrder = s.grantOrder.filter (· ≠ h) ∧ u.feeds = s.feeds ∧ u.margin = s.margin ∧ KeepsQueue s u ∧
          KeepsTiers s u ∧ KeepsOwners s u ∧ KeepsService s u ∧ u.now = s.now ∧ u.pending = s.pending ∧
          Posts s u [(l.tenant, .lease h, .retryWait), (l.tenant, .lease h, .ended)]) ∧
      ∃ u x, exec (.lowReached r) s = .next u ∧ u.slot h.slot = { gen := h.gen, lease := some x } ∧
        x.state = .ended .lapsed ∧ x.term = none ∧ x.tenant = l.tenant)

/-- BACKOFF_DEADLINE restarts a RETRY_WAIT lease from member 0 (R100, R105, R132); STABLE_DEADLINE clears a rail's fault count and keeps
its last fault kind (R129), and the deadline that has acted is removed (log entry 17). Before their deadlines neither changes
anything (log entry 3). -/
def Obligations.RetryDeadlinesAct : Prop :=
  ∀ (s : State) (d : Nat),
    (∀ (h : Handle) (l : Lease), s.liveLease h = some l → l.state = .retryWait d →
      (s.now < d → exec (.backoffDeadline h) s = .next s) ∧
      (∀ (m : Member) (rest : List Member), d ≤ s.now → l.members = m :: rest → (s.rail m.rail).state = .off →
        ∃ u, exec (.backoffDeadline h) s = .next u ∧
          u.slot h.slot = { gen := h.gen, lease := some { l with state := .starting (.rising 0), count := l.count + 1 } } ∧
          KeepsOtherSlots s u h.slot ∧
          u.rail m.rail =
            { s.rail m.rail with
              state := .rising (s.now + (m.voltage + (s.config m.rail).rampRate - 1) / (s.config m.rail).rampRate +
                (s.config m.rail).allowance)
              drive := .moving 0 m.voltage (s.config m.rail).rampRate s.now, currentLimit := m.current } ∧
          u.faultRecord m.rail = s.faultRecord m.rail ∧ KeepsOtherRails s u m.rail ∧ KeepsBudget s u ∧ KeepsQueue s u ∧
          KeepsTiers s u ∧ KeepsOwners s u ∧ KeepsService s u ∧ KeepsClock s u ∧
          Posts s u [(l.tenant, .lease h, .starting)])) ∧
    (∀ r : RailId, (s.faultRecord r).stable = some d →
      (s.now < d → exec (.stableDeadline r) s = .next s) ∧
      (d ≤ s.now →
        exec (.stableDeadline r) s = .next (s.setFaultRecord r { s.faultRecord r with count := 0, stable := none })))

/-! ### Commands that begin an access of the bus -/

/-- A query whose checks pass, with a report buffer at a multiple of 64, begins the write of its report (R25, R73, R118, R168,
R176); OPEN_TENANT of a CLOSED tenant 1 to 3 begins the read of its descriptor at DESCRIPTOR_BASE + 32 × n (R157, R182),
whether or not a control read runs (log entry 30). Neither changes anything else. Addresses wrap at 64 bits (log entry 14). -/
def Obligations.QueriesAndOpenTenantBeginTheirAccess : Prop :=
  ∀ (s : State) (t : TenantId) (c : CtxId) (x : Context) (w buffer : Nat),
    s.context c = some x → buffer % 64 = 0 →
    (∀ n : TenantId, s.Holds admin c (.openTenant n.val) → s.service ≠ .idle → n ≠ admin → (s.tenant n).state = .closed →
      exec .openTenant s = .next (s.setContext c (some { x with
        stage := .openRead n (s.descriptorBase + BitVec.ofNat 64 (32 * n.val)) }))) ∧
    (∀ l, s.Holds t c (.queryLease w buffer) → s.resolve (handleOfWord w) = some l → (l.tenant = t ∨ t = admin) →
      exec (.queryLease t) s = .next (s.setContext c (some { x with
        stage := .reporting (BitVec.ofNat 64 buffer) (leaseReport s.now (handleOfWord w) l) .live }))) ∧
    (∀ (r : RailId) (pgHigh : Bool), s.Holds t c (.queryRail r.val buffer) →
      exec (.queryRail t pgHigh) s = .next (s.setContext c (some { x with
        stage := .reporting (BitVec.ofNat 64 buffer) (s.railReport r pgHigh) .live }))) ∧
    (∀ n : TenantId, s.Holds t c (.queryBudget n.val buffer) → (n = t ∨ t = admin) →
      exec (.queryBudget t) s = .next (s.setContext c (some { x with
        stage := .reporting (BitVec.ofNat 64 buffer) (s.budgetReport n) .live }))) ∧
    (∀ n : TenantId, s.Holds t c (.queryTenant n.val buffer) → (n = t ∨ t = admin) →
      exec (.queryTenant t) s = .next (s.setContext c (some { x with
        stage := .reporting (BitVec.ofNat 64 buffer) (s.tenantReport n) .live })))

/-! ### Configuration commands -/

/-- SET_TIERS whose checks pass replaces the tier list of its rail (R31): `tiers` are the entries' tiers, each inside the rail's
limits and on the 10 mV grid. -/
def Obligations.SetTiersReplacesTheList : Prop :=
  ∀ (s : State) (c : CtxId) (r : RailId) (entries : List TierEntry) (tiers : List Tier),
    s.Holds admin c (.setTiers r.val entries.length entries) → (s.service = .configuring ∨ s.service = .serving) →
    (s.rail r).lease = none → 1 ≤ entries.length → entries.length ≤ 6 →
    List.Forall₂ (fun (e : TierEntry) (x : Tier) =>
      tierKindOf e.kind = some x.kind ∧ x.vmin = e.vmin ∧ x.vmax = e.vmax ∧ x.imax = e.imax ∧
        x.cap = (if x.kind = .capped then e.cap else 0) ∧ e.vmin % 10 = 0 ∧ e.vmax % 10 = 0 ∧ e.vmin ≤ e.vmax ∧
        (x.kind = .fixed → e.vmin = e.vmax) ∧ (s.config r).floor ≤ e.vmin ∧ e.vmax ≤ (s.config r).ceiling ∧
        1 ≤ e.imax ∧ e.imax ≤ (s.config r).currentCeiling ∧ (x.kind = .capped → 1 ≤ e.cap ∧ e.cap ≤ 1920000)) entries tiers →
    ∃ u, exec .setTiers s = .next u ∧ u.tierList r = tiers ∧ (∀ q, q ≠ r → u.tierList q = s.tierList q) ∧
      KeepsLeases s u ∧ KeepsBudget s u ∧ KeepsQueue s u ∧ KeepsRails s u ∧ KeepsOwners s u ∧ KeepsService s u ∧
      KeepsClock s u ∧ Finishes s u admin c .ok .none none 0 []

/-- SET_RAIL on a rail free of live leases and not FALLING (R94, R95): with the configured field set, valid values that hold the
present tiers become the whole record; with it clear, only the configured flag is cleared. -/
def Obligations.SetRailWritesTheRecord : Prop :=
  ∀ (s : State) (c : CtxId) (r : RailId) (cfg : RailConfig),
    s.Holds admin c (.setRail { rail := r.val, config := cfg }) → (s.service = .configuring ∨ s.service = .serving) →
    (s.rail r).lease = none → (s.rail r).isFalling = false →
    (cfg.configured = true → cfg.inRange = true ∧ tiersWithin (s.tierList r) cfg = true) →
    ∃ u, exec .setRail s = .next u ∧
      u.config r = (if cfg.configured then cfg else { s.config r with configured := false }) ∧
      (∀ q, q ≠ r → u.config q = s.config q) ∧ u.rails = s.rails ∧ u.faults = s.faults ∧
      KeepsLeases s u ∧ KeepsBudget s u ∧ KeepsQueue s u ∧ KeepsTiers s u ∧ KeepsOwners s u ∧ KeepsService s u ∧
      KeepsClock s u ∧ Finishes s u admin c .ok .none none 0 []

/-- SET_FEED and SET_MARGIN, with an empty deferred queue (R70, R71): a feed's capacity and qualify time, its state kept, or the
margin; and BUDGET markers with reason RECONFIGURED if the available budget changed (R74). The available budget is the PRESENT
capacity less the margin, never negative (R57). -/
def Obligations.SetFeedAndSetMarginConfigureTheBudget : Prop :=
  ∀ (s : State) (c : CtxId), (s.service = .configuring ∨ s.service = .serving) → s.queue = [] →
    (∀ (f : FeedId) (capacity qualify : Nat), s.Holds admin c (.setFeed f.val capacity qualify) →
      capacity ≤ 4000000 → 10 ≤ qualify → qualify ≤ 5000 →
      ((s.feed f).state = .present → capacity < (s.feed f).capacity →
        s.chargedTotal ≤ (s.setFeedRecord f { s.feed f with capacity := capacity, qualify := qualify }).available) →
      ∃ u, exec .setFeed s = .next u ∧ u.feed f = { capacity := capacity, qualify := qualify, state := (s.feed f).state } ∧
        (∀ g, g ≠ f → u.feed g = s.feed g) ∧ u.margin = s.margin ∧ u.accounts = s.accounts ∧
        u.chargedTotal = s.chargedTotal ∧ u.committedTotal = s.committedTotal ∧ u.grantOrder = s.grantOrder ∧
        KeepsLeases s u ∧ KeepsQueue s u ∧ KeepsRails s u ∧ KeepsTiers s u ∧ KeepsOwners s u ∧ KeepsService s u ∧
        KeepsClock s u ∧ Finishes s u admin c .ok .none none 0 (movedMarks s u .reconfigured)) ∧
    (∀ margin : Nat, s.Holds admin c (.setMargin margin) → margin ≤ 1000000 →
      (s.margin < margin → s.chargedTotal ≤ s.presentCapacity - margin) →
      ∃ u, exec .setMargin s = .next u ∧ u.margin = margin ∧ u.available = s.presentCapacity - margin ∧
        u.feeds = s.feeds ∧ u.accounts = s.accounts ∧ u.chargedTotal = s.chargedTotal ∧
        u.committedTotal = s.committedTotal ∧ u.grantOrder = s.grantOrder ∧ KeepsLeases s u ∧ KeepsQueue s u ∧
        KeepsRails s u ∧ KeepsTiers s u ∧ KeepsOwners s u ∧ KeepsService s u ∧ KeepsClock s u ∧
        Finishes s u admin c .ok .none none 0 (movedMarks s u .reconfigured))

/-- SET_QUOTA, here with an empty deferred queue, sets a tenant's quota and maximum class (R72); SET_QUEUE_POLICY sets the two policy
values, and every entry keeps its place, its pass count and its deadline (R90). -/
def Obligations.SetQuotaAndSetQueuePolicyWriteTheirValues : Prop :=
  ∀ (s : State) (c : CtxId), (s.service = .configuring ∨ s.service = .serving) →
    (∀ (t : TenantId) (maxClass quota : Nat), s.Holds admin c (.setQuota t.val maxClass quota) →
      quota ≤ 12000000 → maxClass ≤ 3 → (s.account t).charged ≤ quota → s.queue = [] →
      ∃ u, exec .setQuota s = .next u ∧
        u.account t = { quota := quota, maxClass := maxClass, charged := (s.account t).charged } ∧
        (∀ n, n ≠ t → u.account n = s.account n) ∧ u.feeds = s.feeds ∧ u.margin = s.margin ∧
        u.chargedTotal = s.chargedTotal ∧ u.committedTotal = s.committedTotal ∧ u.grantOrder = s.grantOrder ∧
        KeepsLeases s u ∧ KeepsQueue s u ∧ KeepsRails s u ∧ KeepsTiers s u ∧ KeepsOwners s u ∧ KeepsService s u ∧
        KeepsClock s u ∧ Finishes s u admin c .ok .none none 0 []) ∧
    (∀ passLimit defaultWait : Nat, s.Holds admin c (.setQueuePolicy passLimit defaultWait) →
      passLimit ≤ 15 → 1 ≤ defaultWait → defaultWait ≤ 600 →
      ∃ u, exec .setQueuePolicy s = .next u ∧ u.passLimit = passLimit ∧ u.defaultWait = defaultWait ∧ u.queue = s.queue ∧
        KeepsLeases s u ∧ KeepsBudget s u ∧ KeepsRails s u ∧ KeepsTiers s u ∧ KeepsOwners s u ∧ KeepsService s u ∧
        KeepsClock s u ∧ Finishes s u admin c .ok .none none 0 [])

/-- CLEAR_LOCKOUT returns a LOCKED rail free of live leases to OFF, clears its fault count, and tells its owner (R134, R152). -/
def Obligations.ClearLockoutUnlocks : Prop :=
  ∀ (s : State) (c : CtxId) (r : RailId),
    s.Holds admin c (.clearLockout r.val) → (s.service = .configuring ∨ s.service = .serving) →
    (s.rail r).state = .locked → (s.rail r).lease = none →
    ∃ u, exec .clearLockout s = .next u ∧
      u.rail r = { state := .off, drive := .held 0, currentLimit := 0, lease := none } ∧
      u.faultRecord r = { s.faultRecord r with count := 0 } ∧ KeepsOtherRails s u r ∧ KeepsLeases s u ∧ KeepsBudget s u ∧
      KeepsQueue s u ∧ KeepsTiers s u ∧ KeepsOwners s u ∧ KeepsService s u ∧ KeepsClock s u ∧
      Finishes s u admin c .ok .none none 0 (ownerMarks (s.owned r).owner r .unlocked)

/-! ### Ownership -/

/-- ASSIGN_RAIL on a rail free of live leases (R139): a pending offer is removed first, with markers for both of its tenants; then the
owner changes, with a marker for the former and the new owner, one marker where they are the same. -/
def Obligations.AssignRailSetsTheOwner : Prop :=
  ∀ (s : State) (c : CtxId) (r : RailId) (b : Nat) (new : Option TenantId),
    s.Holds admin c (.assignRail r.val b) → (s.service = .configuring ∨ s.service = .serving) →
    ((b = 255 ∧ new = none) ∨ ∃ n : TenantId, b = n.val ∧ new = some n) → (s.rail r).lease = none →
    ∃ u, exec .assignRail s = .next u ∧ u.owned r = { owner := new, offer := none } ∧
      (∀ q, q ≠ r → u.owned q = s.owned q) ∧ KeepsLeases s u ∧ KeepsBudget s u ∧ KeepsQueue s u ∧ KeepsRails s u ∧
      KeepsTiers s u ∧ KeepsService s u ∧ KeepsClock s u ∧
      Finishes s u admin c .ok .none none 0
        ((match (s.owned r).offer with
          | some o => [(o.offerer, .rail r, .offerWithdrawn), (o.target, .rail r, .offerWithdrawn)]
          | none => []) ++
          ownerMarks (s.owned r).owner r .assigned ++
          (if (s.owned r).owner = new then [] else ownerMarks new r .assigned))

/-- OFFER_RAIL by the owner of a rail, to another tenant that is OPEN: the offer stands until its lifetime has passed, and the target
is told (R141, R142). WITHDRAW_OFFER by the offerer removes the offer and tells the target (R143). -/
def Obligations.OfferRailAndWithdrawOfferRecordTheOffer : Prop :=
  ∀ (s : State) (t : TenantId) (c : CtxId) (r : RailId), (s.service = .configuring ∨ s.service = .serving) →
    (∀ (n : TenantId) (lifetime : Nat), s.Holds t c (.offerRail r.val n.val lifetime) →
      (s.owned r).owner = some t → n ≠ t → 1 ≤ lifetime → lifetime ≤ 60 → (s.owned r).offer = none → s.inBundle r = false →
      (s.tenant n).state = .isOpen →
      ∃ u, exec (.offerRail t) s = .next u ∧
        u.owned r = { owner := some t, offer := some { offerer := t, target := n, deadline := s.now + 1000 * lifetime } } ∧
        (∀ q, q ≠ r → u.owned q = s.owned q) ∧ KeepsLeases s u ∧ KeepsBudget s u ∧ KeepsQueue s u ∧ KeepsRails s u ∧
        KeepsTiers s u ∧ KeepsService s u ∧ KeepsClock s u ∧
        Finishes s u t c .ok .none none 0 [(n, .rail r, .offered)]) ∧
    (∀ o : Offer, s.Holds t c (.withdrawOffer r.val) → (s.owned r).offer = some o → o.offerer = t →
      ∃ u, exec (.withdrawOffer t) s = .next u ∧ u.owned r = { owner := (s.owned r).owner, offer := none } ∧
        (∀ q, q ≠ r → u.owned q = s.owned q) ∧ KeepsLeases s u ∧ KeepsBudget s u ∧ KeepsQueue s u ∧ KeepsRails s u ∧
        KeepsTiers s u ∧ KeepsService s u ∧ KeepsClock s u ∧
        Finishes s u t c .ok .none none 0 [(o.target, .rail r, .offerWithdrawn)])

/-- An accepted ACCEPT_RAIL of a rail that is a member of no live lease moves the rail alone, LOCKED or not (R145). -/
def Obligations.AcceptRailMovesAFreeRail : Prop :=
  ∀ (s : State) (t : TenantId) (c : CtxId) (r : RailId) (o : Offer),
    s.Holds t c (.acceptRail r.val) → (s.service = .configuring ∨ s.service = .serving) →
    (s.owned r).offer = some o → o.target = t → s.leaseOfRail r = none →
    ∃ u, exec (.acceptRail t) s = .next u ∧ u.owned r = { owner := some t, offer := none } ∧
      (∀ q, q ≠ r → u.owned q = s.owned q) ∧ KeepsLeases s u ∧ KeepsBudget s u ∧ KeepsQueue s u ∧ KeepsRails s u ∧
      KeepsTiers s u ∧ KeepsService s u ∧ KeepsClock s u ∧
      Finishes s u t c .ok .none none 0 [(o.offerer, .rail r, .accepted), (t, .rail r, .accepted)]

/-- An accepted ACCEPT_RAIL of a rail that is the single member of an ACTIVE, WAITING or SUSPENDED lease moves rail and lease together
(R24, R144, R146), here with an empty deferred queue, or a lease that holds no charge, so that no scan follows. -/
def Obligations.AcceptRailMovesTheLease : Prop :=
  ∀ (s : State) (t : TenantId) (c : CtxId) (r : RailId) (o : Offer) (i : SlotId) (l : Lease),
    s.Holds t c (.acceptRail r.val) → (s.service = .configuring ∨ s.service = .serving) →
    (s.owned r).offer = some o → o.target = t → s.leaseOfRail r = some (i, l) → l.members.length = 1 → l.tenant ≠ t →
    (l.state = .waiting ∨ l.state = .suspended ∨
      (l.state = .active ∧ s.queue = [] ∧ (s.account t).charged + l.charge ≤ (s.account t).quota)) →
    ∃ u, exec (.acceptRail t) s = .next u ∧ u.owned r = { owner := some t, offer := none } ∧
      (∀ q, q ≠ r → u.owned q = s.owned q) ∧
      u.slot i = { s.slot i with lease := some { l with tenant := t, count := l.count + 1 } } ∧ KeepsOtherSlots s u i ∧
      (∀ n, u.account n =
        if l.state = .active then
          if n = t then { s.account n with charged := (s.account n).charged + l.charge }
          else if n = l.tenant then { s.account n with charged := (s.account n).charged - l.charge }
          else s.account n
        else s.account n) ∧
      u.chargedTotal = s.chargedTotal ∧ u.committedTotal = s.committedTotal ∧ u.grantOrder = s.grantOrder ∧
      u.feeds = s.feeds ∧ u.margin = s.margin ∧ KeepsQueue s u ∧ KeepsRails s u ∧ KeepsTiers s u ∧ KeepsService s u ∧
      KeepsClock s u ∧
      Finishes s u t c .ok .none (some (s.handleOf i)) l.charge
        [(l.tenant, .lease (s.handleOf i), .transferred), (t, .lease (s.handleOf i), .transferred),
          (o.offerer, .rail r, .accepted), (t, .rail r, .accepted)]

/-- When its deadline has been reached an offer is removed, with a marker for the offerer and the target; owner, rail, lease, queue
and every total are unchanged (R148). Before its deadline OFFER_EXPIRY changes nothing (log entry 3). -/
def Obligations.OfferExpiryRemovesTheOffer : Prop :=
  ∀ (s : State) (r : RailId) (o : Offer), (s.owned r).offer = some o →
    (s.now < o.deadline → exec (.offerExpiry r) s = .next s) ∧
    (o.deadline ≤ s.now →
      ∃ u, exec (.offerExpiry r) s = .next u ∧ u.owned r = { owner := (s.owned r).owner, offer := none } ∧
        (∀ q, q ≠ r → u.owned q = s.owned q) ∧ KeepsLeases s u ∧ KeepsBudget s u ∧ KeepsQueue s u ∧ KeepsRails s u ∧
        KeepsTiers s u ∧ KeepsService s u ∧ KeepsClock s u ∧
        Posts s u [(o.offerer, .rail r, .offerExpired), (o.target, .rail r, .offerExpired)])

/-! ### Tenants opened and closed -/

/-- CLOSE_TENANT of an OPEN or BROKEN tenant that has no live lease, no context, no offer and nothing in its queue (R158): the teardown
ends in the command's own happening. -/
def Obligations.CloseTenantOfAnIdleTenant : Prop :=
  ∀ (s : State) (c : CtxId) (n : TenantId),
    s.Holds admin c (.closeTenant n.val) → s.service ≠ .idle → s.service.isDraining = false → n ≠ admin →
    ((s.tenant n).state = .isOpen ∨ (s.tenant n).state = .broken) → (∀ m, (s.tenant m).state ≠ .closing) →
    s.holdsLease n = false → s.holdsContext n = false → (s.tenant n).outbound = [] → (s.tenant n).writer = none →
    (∀ d y, s.context d = some y → y.stage ≠ .tearing n) →
    (∀ r o, (s.owned r).offer = some o → o.offerer ≠ n ∧ o.target ≠ n) →
    ∃ u, exec .closeTenant s = .next u ∧
      u.tenant n =
        { s.tenant n with
          state := .closed, desc := none, scanPending := false, underWay := false, stalled := false, recheck := none
          intPending := false } ∧
      (∃ x, s.context c = some x ∧ u.context c = some { x with stage := .finished } ∧
        u.tenant admin =
          { s.tenant admin with
            underWay := false
            outbound := (s.tenant admin).outbound ++
              [.completion { ctx := c, tag := recordTag x.record, kind := recordKind x.record, status := .ok, detail := .none
                             handle := none, charge := 0 }] }) ∧
      (∀ d, d ≠ c → u.context d = s.context d) ∧ (∀ m, m ≠ n → m ≠ admin → u.tenant m = s.tenant m) ∧
      u.lastGranted = s.lastGranted ∧ KeepsLeases s u ∧ KeepsBudget s u ∧ KeepsQueue s u ∧ KeepsRails s u ∧
      KeepsTiers s u ∧ KeepsOwners s u ∧ KeepsService s u ∧ u.now = s.now ∧ u.pending = s.pending

/-- Whatever CLOSE_TENANT finds (R150, R154, R158), wherever queue entries name leases that wait (R79). The tenant is CLOSING while it
has a live lease or a context and CLOSED otherwise, with nothing in its queue and its line deasserted. A running lease with a
member not down is STOPPING with cause TENANT_CLOSED, one already STOPPING is as it was, and one in WAITING, SUSPENDED or RETRY_WAIT
is ENDED with TENANT_CLOSED, its slot freed (R18) where no other tenant's queue marks it; no other tenant's live lease that does not
wait changes, and no entry for a lease of the tenant is left. The contexts of its queued completions and of its command not yet carried out
are free; its other contexts are held, and the accesses of contexts and writer run on with their results ignored. No offer stands
that it made or that was made to it, and no owner and no other offer has changed. -/
def Obligations.CloseTenantTearsDown : Prop :=
  ∀ (s : State) (c : CtxId) (n : TenantId),
    s.takenCommand admin = some (c, .closeTenant n.val) → s.service ≠ .idle → n ≠ admin →
    ((s.tenant n).state = .isOpen ∨ (s.tenant n).state = .broken) →
    (∀ e ∈ s.queue, ∃ l, s.resolve e.handle = some l ∧ l.waits = true) →
    ∃ u, exec .closeTenant s = .next u ∧
      (u.tenant n).state = (if u.holdsLease n || u.holdsContext n then .closing else .closed) ∧
      (u.tenant n).outbound = [] ∧ u.interruptLine n = false ∧ (u.tenant n).scanPending = false ∧
      (u.tenant n).underWay = false ∧ (u.tenant n).stalled = false ∧
      (u.tenant n).writer = (s.tenant n).writer.map WriterAccess.dropped ∧
      (∀ j l, s.lease? j = some l → l.tenant = n →
        (l.stop?.isSome = true → u.slot j = s.slot j) ∧
        ((l.state = .active ∨ (∃ p, l.state = .starting p) ∨ ∃ a, l.state = .adjusting a) →
          (∃ m ∈ l.members, (s.rail m.rail).down = false) →
          ∃ stopped stop, u.slot j = { gen := (s.slot j).gen, lease := some stopped } ∧ stopped.tenant = n ∧
            stopped.charge = l.charge ∧ stopped.members.map Member.rail = l.members.map Member.rail ∧
            stopped.count = l.count + 1 ∧ stopped.state = .stopping stop ∧ stop.cause = .tenantClosed ∧
            stop.mode = .sequenced ∧ stop.faulted = [] ∧ stop.suspendMark = false) ∧
        ((l.waits = true ∨ ∃ d, l.state = .retryWait d) →
          (s.MarkedElsewhere n (s.handleOf j) →
            u.slot j =
              { gen := (s.slot j).gen
                lease := some { l with state := .ended .tenantClosed, term := none, count := l.count + 1 } }) ∧
          (¬s.MarkedElsewhere n (s.handleOf j) →
            u.slot j = { gen := if (s.slot j).gen = 4095 then 1 else (s.slot j).gen + 1, lease := none }))) ∧
      (∀ j l, s.lease? j = some l → l.tenant ≠ n → l.live = true → l.waits = false → u.slot j = s.slot j) ∧
      (∀ e ∈ u.queue, ∀ l, s.lease? e.handle.slot = some l → l.tenant ≠ n) ∧
      (∀ x, .completion x ∈ (s.tenant n).outbound → u.context x.ctx = none) ∧
      (∀ d x, s.context d = some x → x.tenant = n → x.stage = .taken →
        (∀ e y, s.context e = some y → y.tenant = n → y.stage = .taken → e = d) → u.context d = none) ∧
      (∀ d x, s.context d = some x → x.tenant = n → x.stage ≠ .taken →
        (∀ y, .completion y ∈ (s.tenant n).outbound → y.ctx ≠ d) →
        u.context d = some { x with stage := x.stage.dropped }) ∧
      (∀ r, (u.owned r).owner = (s.owned r).owner ∧
        (u.owned r).offer =
          (match (s.owned r).offer with
           | some o => if o.offerer = n ∨ o.target = n then none else some o
           | none => none))

/-! ### Service states and CONTROL -/

/-- R187: START_SERVICE carried out in CONFIGURING moves the service to SERVING and completes OK, with no scan and no marker; in any
other state it is refused NOT_SERVING. Of START_SERVICE and an EMERGENCY_STOP in CONFIGURING, where no lease is live (R179), either may
come first: both succeed, and the service ends in the state of the later one. -/
def Obligations.StartServiceServes : Prop :=
  ∀ (s : State) (c : CtxId), s.Holds admin c .startService →
    (s.service = .configuring →
      ∃ u, exec .startService s = .next u ∧ u.service = .serving ∧ u.controlRead = s.controlRead ∧
        u.descriptorBase = s.descriptorBase ∧ u.lastAction = s.lastAction ∧ u.outcome = s.outcome ∧
        u.startError = s.startError ∧ KeepsLeases s u ∧ KeepsBudget s u ∧ KeepsQueue s u ∧ KeepsRails s u ∧ KeepsTiers s u ∧
        KeepsOwners s u ∧ KeepsClock s u ∧ Finishes s u admin c .ok .none none 0 []) ∧
    (s.service ≠ .configuring →
      ∃ u, exec .startService s = .next u ∧ KeepsLeases s u ∧ KeepsBudget s u ∧ KeepsQueue s u ∧ KeepsRails s u ∧
        KeepsTiers s u ∧ KeepsOwners s u ∧ KeepsService s u ∧ KeepsClock s u ∧
        Finishes s u admin c .notServing .none none 0 []) ∧
    (s.service = .configuring → s.anyLive = false → (∀ n, (s.tenant n).state ≠ .closing) →
      (∃ u v, exec .startService s = .next u ∧ u.service = .serving ∧ exec .emergencyStop u = .next v ∧
        v.service = .configuring) ∧
      ∃ u v, exec .emergencyStop s = .next u ∧ u.service = .configuring ∧ exec .startService u = .next v ∧
        v.service = .serving)

/-- STOP_SERVICE and EMERGENCY_STOP taken with no live lease (R186, R188, R189): the drain ends in the same happening, in
CONFIGURING, and a STOP_SERVICE completes OK there. -/
def Obligations.DrainOfAnEmptyTableEndsAtOnce : Prop :=
  ∀ s : State, s.anyLive = false → (∀ n, (s.tenant n).state ≠ .closing) →
    (∀ c, s.Holds admin c .stopService → s.service = .serving → (∀ d y, s.context d = some y → y.stage ≠ .draining) →
      ∃ u, exec .stopService s = .next u ∧ u.service = .configuring ∧ u.controlRead = s.controlRead ∧
        u.descriptorBase = s.descriptorBase ∧ u.lastAction = s.lastAction ∧ u.outcome = s.outcome ∧
        u.startError = s.startError ∧ KeepsLeases s u ∧ KeepsBudget s u ∧ KeepsQueue s u ∧ KeepsRails s u ∧ KeepsTiers s u ∧
        KeepsOwners s u ∧ u.now = s.now ∧ u.pending = s.pending ∧ Finishes s u admin c .ok .none none 0 []) ∧
    ((s.service = .configuring ∨ s.service = .serving) →
      ∃ u, exec .emergencyStop s = .next u ∧ u.service = .configuring ∧ u.controlRead = s.controlRead ∧
        u.descriptorBase = s.descriptorBase ∧ u.lastAction = .emergencyStop ∧ u.outcome = .done ∧
        u.startError = s.startError ∧ KeepsLeases s u ∧ KeepsBudget s u ∧ KeepsQueue s u ∧ KeepsRails s u ∧ KeepsTiers s u ∧
        KeepsOwners s u ∧ KeepsRings s u ∧ u.now = s.now ∧ u.pending = s.pending)

/-- After an EMERGENCY_STOP or an accepted STOP_SERVICE every live lease is STOPPING, after an EMERGENCY_STOP unsequenced, the queue
is empty, and the service is DRAINING exactly while a live lease is left (R179, R186, R188, R189). -/
def Obligations.DrainLeavesOnlyStoppingLeases : Prop :=
  ∀ (s : State) (i : Instr),
    (i = .emergencyStop ∧ s.service ≠ .idle) ∨
      (i = .stopService ∧ s.service = .serving ∧ ∃ c, s.takenCommand admin = some (c, .stopService)) →
    (∀ e ∈ s.queue, ∃ l, s.resolve e.handle = some l ∧ l.waits = true) →
    ∃ u, exec i s = .next u ∧ u.queue = [] ∧
      (∀ j l, u.lease? j = some l → l.live = true →
        ∃ stop, l.state = .stopping stop ∧ (i = .emergencyStop → stop.mode = .unsequenced)) ∧
      u.service =
        (if u.anyLive then
          if i = .emergencyStop then .draining .emergency s.service.waiting else .draining .serviceStopped true
        else .configuring)

/-- The CONTROL writes (R183, R184, R185): each sets the last action; START and ADMIN_REOPEN taken begin the read of tenant 0's
descriptor with outcome PENDING; an action ignored, and an unknown one, sets the outcome IGNORED and nothing else. A command whose fill-byte
write is still on the bus does not hold an ADMIN_REOPEN back (log entry 30). -/
def Obligations.ControlWritesAreRecorded : Prop :=
  ∀ s : State,
    (s.service = .idle → s.controlRead = none →
      exec .start s = .next
        { s with lastAction := .start, outcome := .pending, controlRead := some (.start s.descriptorBase) }) ∧
    ((s.service ≠ .idle ∨ s.controlRead ≠ none) →
      exec .start s = .next { s with lastAction := .start, outcome := .ignored }) ∧
    (s.service = .idle → exec .emergencyStop s = .next { s with lastAction := .emergencyStop, outcome := .ignored }) ∧
    ((s.tenant admin).state = .broken → s.controlRead = none →
      (∀ c x, s.context c = some x → x.tenant = admin → x.stage ≠ .taken ∧ x.stage.isOpenRead = false) →
      exec .adminReopen s = .next
        { s with lastAction := .adminReopen, outcome := .pending, controlRead := some (.adminReopen s.descriptorBase) }) ∧
    (((s.tenant admin).state ≠ .broken ∨ s.controlRead ≠ none ∨
        ∃ c x, s.context c = some x ∧ x.tenant = admin ∧ x.stage.isOpenRead = true) →
      exec .adminReopen s = .next { s with lastAction := .adminReopen, outcome := .ignored }) ∧
    (∀ code, exec (.unknownAction code) s = .next { s with lastAction := .unknown, outcome := .ignored })

/-- A write to DESCRIPTOR_BASE is taken in IDLE with no control read running, with the low 7 bits held as 0; a 32-bit write changes one
half alone; any other write is ignored (R182, R199). -/
def Obligations.DescriptorBaseWrites : Prop :=
  ∀ s : State,
    (s.service = .idle → s.controlRead = none → ∀ (v : BitVec 64) (h : BitVec 32),
      exec (.descriptorBaseWrite (.whole v)) s = .next { s with descriptorBase := v &&& 0xFFFFFFFFFFFFFF80#64 } ∧
      exec (.descriptorBaseWrite (.lower h)) s = .next
        { s with
          descriptorBase := (s.descriptorBase &&& 0xFFFFFFFF00000000#64) ||| (h.setWidth 64 &&& 0xFFFFFF80#64) } ∧
      exec (.descriptorBaseWrite (.upper h)) s = .next
        { s with descriptorBase := (h.setWidth 64 <<< 32) ||| (s.descriptorBase &&& 0xFFFFFF80#64) }) ∧
    ((s.service ≠ .idle ∨ s.controlRead ≠ none) → ∀ w, exec (.descriptorBaseWrite w) s = .next s)

/-- R192 with the rules its table names (R1, R53, R75, R76, R117, R121, R137, R153, R164, R177): SOFT_RESET in any state. The
voltage held in FALLING is the one the ramp has reached (log entry 15). -/
def Obligations.SoftResetReturnsToIdle : Prop :=
  ∀ s : State, ∃ u, exec .softReset s = .next u ∧
    (∀ i, u.slot i =
      if (s.slot i).lease.isSome then
        { gen := if (s.slot i).gen = 4095 then 1 else (s.slot i).gen + 1, lease := none }
      else s.slot i) ∧
    u.tiers = s.tiers ∧ u.feeds = s.feeds ∧ u.margin = s.margin ∧
    (∀ t, u.account t = { s.account t with charged := 0 }) ∧ u.chargedTotal = 0 ∧ u.committedTotal = 0 ∧ u.grantOrder = [] ∧
    u.queue = [] ∧ u.passLimit = s.passLimit ∧ u.defaultWait = s.defaultWait ∧ u.railConfig = s.railConfig ∧
    (∀ r, u.rail r =
      if (s.rail r).powered then
        { s.rail r with
          state := .falling (s.now + (s.config r).discharge), drive := .held ((s.rail r).drive.at s.now), lease := none }
      else { s.rail r with lease := none }) ∧
    (∀ r, u.faultRecord r = { s.faultRecord r with stable := none }) ∧
    (∀ r, u.owned r = { s.owned r with offer := none }) ∧
    (∀ t, u.tenant t =
      { state := .closed, desc := none, head := 0, tail := 0, scanPending := false, underWay := false, inFlight := 0
        outbound := [], intPending := false, stalled := false, recheck := none, writer := none }) ∧
    (∀ c, u.context c = none) ∧ u.lastGranted = 3 ∧ u.service = .idle ∧ u.controlRead = none ∧
    u.descriptorBase = s.descriptorBase ∧ u.lastAction = .softReset ∧ u.outcome = .done ∧ u.startError = .none ∧
    KeepsClock s u

/-- The ends of descriptor reads (R155, R156, R157, R162, R184, R185), for a control read and for an OPEN_TENANT: `none` is a bus
error. An ADMIN_REOPEN read that fails leaves tenant 0 BROKEN with everything as it was. The end of an ADMIN_REOPEN read records
ADMIN_REOPEN as the last action (log entry 12). -/
def Obligations.DescriptorReadsEnd : Prop :=
  ∀ (s : State) (data : Option (List Byte)) (d : Descriptor) (addr : BitVec 64),
    (s.controlRead = some (.start addr) → data.bind judgeDescriptor = some d →
      exec (.descriptorReadEnd .control data) s = .next
        { s.setTenant admin
            { s.tenant admin with
              state := .isOpen, desc := some d, head := 0, tail := 0, scanPending := false, inFlight := 0, outbound := []
              intPending := false, stalled := false, recheck := none } with
          service := .configuring, controlRead := none, lastAction := .start, outcome := .done, startError := .none }) ∧
    (s.controlRead = some (.start addr) → data.bind judgeDescriptor = none →
      exec (.descriptorReadEnd .control data) s = .next
        { s with
          controlRead := none, lastAction := .start, outcome := .failed
          startError := if data = none then .busError else .badDescriptor }) ∧
    (s.controlRead = some (.adminReopen addr) → data.bind judgeDescriptor = some d →
      exec (.descriptorReadEnd .control data) s = .next
        { s.setTenant admin
            { s.tenant admin with
              state := .isOpen, desc := some d, head := 0, tail := 0, scanPending := false, stalled := false, recheck := none }
          with controlRead := none, lastAction := .adminReopen, outcome := .done, startError := .none }) ∧
    (s.controlRead = some (.adminReopen addr) → data.bind judgeDescriptor = none →
      exec (.descriptorReadEnd .control data) s = .next
        { s with
          controlRead := none, lastAction := .adminReopen, outcome := .failed
          startError := if data = none then .busError else .badDescriptor }) ∧
    (∀ c x n, s.findContext admin Stage.isOpenRead = some (c, x) → x.stage = .openRead n addr → n ≠ admin →
      (s.tenant admin).hears = true →
      ∃ u, exec (.descriptorReadEnd .openTenant data) s = .next u ∧ KeepsLeases s u ∧ KeepsBudget s u ∧ KeepsQueue s u ∧
        KeepsRails s u ∧ KeepsTiers s u ∧ KeepsOwners s u ∧ KeepsService s u ∧ KeepsClock s u ∧
        (data.bind judgeDescriptor = some d →
          Finishes
            (s.setTenant n
              { s.tenant n with
                state := .isOpen, desc := some d, head := 0, tail := 0, scanPending := false, inFlight := 0, outbound := []
                intPending := false, stalled := false, recheck := none })
            u admin c .ok .none none 0 []) ∧
        (data = none → Finishes s u admin c .busError .none none 0 []) ∧
        (data ≠ none → data.bind judgeDescriptor = none → Finishes s u admin c .badDescriptor .none none 0 []))

/-- A descriptor is good (R155) exactly when its valid flag is set, both sizes are among the six, both bases are aligned, and the two
rings have no byte in common. The addresses of a ring are exact numbers here, so one that would run past 2^64 does not wrap (log
entry 14). -/
def Obligations.GoodDescriptors : Prop :=
  ∀ (bytes : List Byte),
    (judgeDescriptor bytes).isSome = true ↔
      (let sub := uint bytes 0 8
       let comp := uint bytes 8 8
       let subSize := uint bytes 16 2
       let compSize := uint bytes 18 2
       (byteAt bytes 20).getLsbD 0 = true ∧ subSize ∈ [8, 16, 32, 64, 128, 256] ∧ compSize ∈ [8, 16, 32, 64, 128, 256] ∧
         sub % 64 = 0 ∧ comp % 16 = 0 ∧
         ¬ ∃ a, (sub ≤ a ∧ a < sub + 64 * subSize) ∧ comp ≤ a ∧ a < comp + 16 * compSize)

/-! ### TENANT_SIGNAL -/

/-- NOTIFY and ACK (R160, R173, R174, R175): in OPEN a NOTIFY sets scan-pending, marks a head read in progress, and starts a recheck if
the tenant is stalled with no access of its writer in progress; in any other state it is ignored; an ACK clears interrupt pending in
any state. -/
def Obligations.SignalWrites : Prop :=
  ∀ (s : State) (t : TenantId) (alsoAck : Bool),
    exec (.ack t) s = .next (s.setTenant t { s.tenant t with intPending := false }) ∧
    ((s.tenant t).state ≠ .isOpen →
      exec (.notify t alsoAck) s = .next
        (if alsoAck then s.setTenant t { s.tenant t with intPending := false } else s)) ∧
    ((s.tenant t).state = .isOpen →
      ∃ u, exec (.notify t alsoAck) s = .next u ∧
        u.tenant t =
          { s.tenant t with
            scanPending := true, intPending := !alsoAck && (s.tenant t).intPending
            writer :=
              if (s.tenant t).stalled = true ∧ (s.tenant t).writer = none then
                some (.recheckRead (s.tenant t).tailAddr .live)
              else (s.tenant t).writer } ∧
        (∀ n, n ≠ t → u.tenant n = s.tenant n) ∧
        (∀ c x, s.context c = some x → u.context c =
          some (if x.tenant = t then
            { x with stage := match x.stage with | .headRead addr _ fate => .headRead addr true fate | y => y } else x)) ∧
        (∀ c, s.context c = none → u.context c = none) ∧ u.lastGranted = s.lastGranted ∧ KeepsLeases s u ∧ KeepsBudget s u ∧
        KeepsQueue s u ∧ KeepsRails s u ∧ KeepsTiers s u ∧ KeepsOwners s u ∧ KeepsService s u ∧ KeepsClock s u)

/-! ### The rings: intake and the writer -/

/-- INTAKE_GRANT gives a free context to the first eligible tenant after the one granted last (R161, R164): the tenant's head slot
is read, and its command is under way. Addresses wrap at 64 bits (log entry 14). -/
def Obligations.IntakeGrantsInTurn : Prop :=
  ∀ (s : State) (t : TenantId) (d : Descriptor),
    let eligible := fun n =>
      (s.tenant n).state = .isOpen ∧ (s.tenant n).scanPending = true ∧ (s.tenant n).inFlight < 12 ∧
        (s.tenant n).underWay = false
    eligible t → (∀ n, eligible n → (t - s.lastGranted - 1).val ≤ (n - s.lastGranted - 1).val) →
    (s.tenant t).desc = some d → (∃ c, s.context c = none) →
    ∃ u c, exec .intakeGrant s = .next u ∧ s.context c = none ∧
      u.context c =
        some { tenant := t, record := [], tag := none
               stage := .headRead (d.subBase + BitVec.ofNat 64 (64 * (s.tenant t).head)) false .live } ∧
      (∀ e, e ≠ c → u.context e = s.context e) ∧
      u.tenant t = { s.tenant t with inFlight := (s.tenant t).inFlight + 1, underWay := true } ∧
      (∀ n, n ≠ t → u.tenant n = s.tenant n) ∧ u.lastGranted = t ∧ KeepsLeases s u ∧ KeepsBudget s u ∧ KeepsQueue s u ∧
      KeepsRails s u ∧ KeepsTiers s u ∧ KeepsOwners s u ∧ KeepsService s u ∧ KeepsClock s u

/-- A head read that ends with data (R160, R161): a filled slot is kept and 0 is written to its fill byte; an empty slot frees the
context, and clears scan-pending unless a NOTIFY came during the read. -/
def Obligations.HeadReadsEnd : Prop :=
  ∀ (s : State) (t : TenantId) (c : CtxId) (x : Context) (addr : BitVec 64) (notified : Bool) (bytes : List Byte),
    s.context c = some x → x.tenant = t → x.stage = .headRead addr notified .live →
    (∀ e y, s.context e = some y → y.tenant = t → y.stage.isHeadRead = true → e = c) →
    (byteAt bytes 0 ≠ 0 →
      exec (.headReadEnd t (some bytes)) s = .next
        (s.setContext c (some { tenant := t, record := bytes, tag := none, stage := .fillWrite addr .live }))) ∧
    (byteAt bytes 0 = 0 →
      exec (.headReadEnd t (some bytes)) s = .next
        ((s.setContext c none).setTenant t
          { s.tenant t with
            scanPending := notified && (s.tenant t).scanPending, underWay := false, inFlight := (s.tenant t).inFlight - 1 }))

/-- A fill-byte write that ends without error returns the slot and takes the command (R161, R165, R167): the head advances, and the
command is refused TAG_IN_USE, refused by the gate, or taken with its tag. -/
def Obligations.FillByteWritesTakeTheCommand : Prop :=
  ∀ (s : State) (t : TenantId) (c : CtxId) (x : Context) (addr : BitVec 64) (fate : Fate) (d : Descriptor),
    s.context c = some x → x.tenant = t → x.tag = none → x.stage = .fillWrite addr fate → fate ≠ .dropped →
    (∀ e y, s.context e = some y → y.tenant = t → y.stage.isFillWrite = true → e = c) →
    (s.tenant t).desc = some d →
    let next := if (s.tenant t).head + 1 < d.subSize then (s.tenant t).head + 1 else 0
    let advanced := s.setTenant t { s.tenant t with head := next }
    let taken := advanced.setContext c (some { x with tag := some (recordTag x.record), stage := .taken })
    let held := ∃ e y, e ≠ c ∧ s.context e = some y ∧ y.tenant = t ∧ y.tag = some (recordTag x.record)
    (held → (s.tenant t).hears = true →
      ∃ u, exec (.fillByteWriteEnd t .done) s = .next u ∧ Finishes advanced u t c .tagInUse .none none 0 [] ∧
        u = { s with tenants := u.tenants, pool := u.pool }) ∧
    (¬held → ∀ status : Status, (s.tenant t).hears = true →
      (Command.read x.record = none ∧ status = .badKind) ∨
        (∃ cmd, Command.read x.record = some cmd ∧ cmd.adminOnly = true ∧ t ≠ admin ∧ status = .notAdmin) ∨
        (∃ cmd, Command.read x.record = some cmd ∧ (cmd.adminOnly = true → t = admin) ∧ cmd.allowed s.service = false ∧
          status = .notServing) →
      ∃ u, exec (.fillByteWriteEnd t .done) s = .next u ∧ Finishes taken u t c status .none none 0 [] ∧
        u = { s with tenants := u.tenants, pool := u.pool }) ∧
    (¬held → ∀ cmd : Command, Command.read x.record = some cmd → (cmd.adminOnly = true → t = admin) →
      cmd.allowed s.service = true → exec (.fillByteWriteEnd t .done) s = .next taken)

/-- WRITER_START begins the tail read of a tenant that is OPEN and not stalled, with an entry queued and no access of its writer
in progress, and does nothing for any other (R172), one with a dropped access of its writer among them (log entry 10).
RECHECK_DEADLINE begins the recheck read of a stalled tenant (R173), and the deadline that has acted is removed (log entry 17);
where an access of the writer is in progress it does no more than that, and before the deadline it changes nothing (log entry 3).
Addresses wrap at 64 bits (log entry 14). -/
def Obligations.WriterReadsTheTail : Prop :=
  ∀ (s : State) (t : TenantId) (d : Descriptor), (s.tenant t).desc = some d →
    ((s.tenant t).state = .isOpen ∧ (s.tenant t).stalled = false ∧ (s.tenant t).outbound ≠ [] ∧ (s.tenant t).writer = none →
      exec (.writerStart t) s = .next
        (s.setTenant t
          { s.tenant t with
            writer := some (.tailRead (d.compBase + BitVec.ofNat 64 (16 * (s.tenant t).tail)) .live) })) ∧
    (¬((s.tenant t).state = .isOpen ∧ (s.tenant t).stalled = false ∧ (s.tenant t).outbound ≠ [] ∧ (s.tenant t).writer = none) →
      exec (.writerStart t) s = .next s) ∧
    (∀ deadline, (s.tenant t).recheck = some deadline →
      (s.now < deadline → exec (.recheckDeadline t) s = .next s) ∧
      (deadline ≤ s.now →
        exec (.recheckDeadline t) s = .next
          (s.setTenant t
            { s.tenant t with
              recheck := none
              writer :=
                if (s.tenant t).writer = none then
                  some (.recheckRead (d.compBase + BitVec.ofNat 64 (16 * (s.tenant t).tail)) .live)
                else (s.tenant t).writer })))

/-- The end of a tail read or a recheck read with data (R18, R171, R172, R173): a filled slot stalls the tenant for 10 ms; an empty slot
clears stalled, and the entry at the head of the queue is taken and its record written there. A taken lease marker, where no queue
holds another for its handle, frees the slot of an ENDED lease. -/
def Obligations.TailReadsEnd : Prop :=
  ∀ (s : State) (i : Instr) (t : TenantId) (b : Byte) (addr : BitVec 64),
    (i = .tailReadEnd t (some b) ∧ (s.tenant t).writer = some (.tailRead addr .live)) ∨
      (i = .recheckReadEnd t (some b) ∧ (s.tenant t).writer = some (.recheckRead addr .live)) →
    (b ≠ 0 →
      exec i s = .next
        (s.setTenant t { s.tenant t with stalled := true, recheck := some (s.now + 10), writer := none })) ∧
    (∀ e rest, b = 0 → (s.tenant t).outbound = e :: rest →
      let written := s.setTenant t
        { s.tenant t with
          stalled := false, recheck := none, outbound := rest
          writer := some (.recordWrite addr (s.recordOf e) (match e with | .completion x => some x.ctx | _ => none) .live) }
      (∀ h l reason, e = .marker (.lease h) reason → s.resolve h = some l → l.live = false → written.marked h = false →
        exec i s = .next
          (written.setSlot h.slot { gen := if h.gen = 4095 then 1 else h.gen + 1, lease := none })) ∧
      ((∀ h reason, e = .marker (.lease h) reason → ∃ l, s.lease? h.slot = some l ∧ l.live = true) →
        exec i s = .next written))

/-- The end of a record write without error (R172, R174): the tail advances, interrupt pending is set where the descriptor enables
interrupts, and the context of a completion is freed. -/
def Obligations.RecordWritesEnd : Prop :=
  ∀ (s : State) (t : TenantId) (addr : BitVec 64) (record : List Byte) (ctx : Option CtxId) (fate : Fate) (d : Descriptor),
    (s.tenant t).writer = some (.recordWrite addr record ctx fate) → fate ≠ .dropped → (s.tenant t).desc = some d →
    let after : Tenant :=
      { s.tenant t with
        tail := if (s.tenant t).tail + 1 < d.compSize then (s.tenant t).tail + 1 else 0
        intPending := (s.tenant t).intPending || d.interrupt, writer := none }
    (ctx = none → exec (.recordWriteEnd t .done) s = .next (s.setTenant t after)) ∧
    (∀ c x, ctx = some c → s.context c = some x → x.tenant = t →
      exec (.recordWriteEnd t .done) s = .next
        ((s.setContext c none).setTenant t { after with inFlight := after.inFlight - 1 }))

/-- The end of a report write finishes its query with OK or BUS_ERROR (R168). -/
def Obligations.ReportWritesEnd : Prop :=
  ∀ (s : State) (t : TenantId) (c : CtxId) (x : Context) (addr : BitVec 64) (report : List Byte) (result : BusEnd),
    s.context c = some x → x.tenant = t → x.stage = .reporting addr report .live → (s.tenant t).hears = true →
    (∀ e y, s.context e = some y → y.tenant = t → y.stage.isReporting = true → e = c) →
    ∃ u, exec (.reportWriteEnd t result) s = .next u ∧ KeepsLeases s u ∧ KeepsBudget s u ∧ KeepsQueue s u ∧ KeepsRails s u ∧
      KeepsTiers s u ∧ KeepsOwners s u ∧ KeepsService s u ∧ KeepsClock s u ∧
      Finishes s u t c (if result = .done then .ok else .busError) .none none 0 []

/-- A bus error on a ring of a tenant makes the tenant BROKEN (R162): stalled and its deadline are cleared; its descriptor copy, its
indices, its queue and interrupt pending are kept; an intake's context is freed and its command is no longer under way; the entry of
a failed record write is lost and its context freed. Every other context is held as it was, but that a read of the tenant's rings
still on the bus, by a context or by the writer, is to be ignored. No other tenant and no other block changes. -/
def Obligations.RingErrorBreaksTheTenant : Prop :=
  ∀ (s : State) (t : TenantId) (addr : BitVec 64),
    (∀ (i : Instr) (c : CtxId) (x : Context), s.context c = some x → x.tenant = t →
      (i = .headReadEnd t none ∧ (∃ notified, x.stage = .headRead addr notified .live) ∧
          (∀ e y, s.context e = some y → y.tenant = t → y.stage.isHeadRead = true → e = c)) ∨
        (i = .fillByteWriteEnd t .error ∧ x.stage = .fillWrite addr .live ∧
          (∀ e y, s.context e = some y → y.tenant = t → y.stage.isFillWrite = true → e = c)) →
      ∃ u, exec i s = .next u ∧ u = { s with tenants := u.tenants, pool := u.pool } ∧ u.context c = none ∧
        (∀ e, e ≠ c → u.context e = (s.mapStages t Stage.outdated).context e) ∧ (∀ n, n ≠ t → u.tenant n = s.tenant n) ∧
        u.tenant t =
          { s.tenant t with
            state := .broken, stalled := false, recheck := none, underWay := false, inFlight := (s.tenant t).inFlight - 1
            writer := (s.tenant t).writer.map WriterAccess.outdated }) ∧
    (∀ i : Instr,
      (i = .tailReadEnd t none ∧ (s.tenant t).writer = some (.tailRead addr .live)) ∨
        (i = .recheckReadEnd t none ∧ (s.tenant t).writer = some (.recheckRead addr .live)) ∨
        (i = .recordWriteEnd t .error ∧ ∃ record, (s.tenant t).writer = some (.recordWrite addr record none .live)) →
      ∃ u, exec i s = .next u ∧ u = { s with tenants := u.tenants, pool := (s.mapStages t Stage.outdated).pool } ∧
        (∀ n, n ≠ t → u.tenant n = s.tenant n) ∧
        u.tenant t = { s.tenant t with state := .broken, stalled := false, recheck := none, writer := none }) ∧
    (∀ (record : List Byte) (c : CtxId) (x : Context), s.context c = some x → x.tenant = t →
      (s.tenant t).writer = some (.recordWrite addr record (some c) .live) →
      ∃ u, exec (.recordWriteEnd t .error) s = .next u ∧ u = { s with tenants := u.tenants, pool := u.pool } ∧
        u.context c = none ∧ (∀ e, e ≠ c → u.context e = (s.mapStages t Stage.outdated).context e) ∧
        (∀ n, n ≠ t → u.tenant n = s.tenant n) ∧
        u.tenant t =
          { s.tenant t with
            state := .broken, stalled := false, recheck := none, writer := none, inFlight := (s.tenant t).inFlight - 1 })

/-! ### Feeds and shedding -/

/-- The sense lines (R55): a rise makes an ABSENT feed QUALIFYING; a fall makes a QUALIFYING feed ABSENT; a fall at a PRESENT feed makes
it ABSENT and, where the committed total is still within the new available budget, takes no victim (R67), with BUDGET markers if the
available budget fell (R74). -/
def Obligations.SenseLinesAreFollowed : Prop :=
  ∀ (s : State) (f : FeedId),
    ((s.feed f).state = .absent →
      exec (.senseLineRise f) s = .next
        (s.setFeedRecord f { s.feed f with state := .qualifying (s.now + (s.feed f).qualify) })) ∧
    (∀ d, (s.feed f).state = .qualifying d →
      exec (.senseLineFall f) s = .next (s.setFeedRecord f { s.feed f with state := .absent })) ∧
    ((s.feed f).state = .present → s.committedTotal ≤ (s.setFeedRecord f { s.feed f with state := .absent }).available →
      ∃ u, exec (.senseLineFall f) s = .next u ∧ u.feed f = { s.feed f with state := .absent } ∧
        (∀ g, g ≠ f → u.feed g = s.feed g) ∧ u.margin = s.margin ∧ u.accounts = s.accounts ∧
        u.chargedTotal = s.chargedTotal ∧ u.committedTotal = s.committedTotal ∧ u.grantOrder = s.grantOrder ∧
        KeepsLeases s u ∧ KeepsQueue s u ∧ KeepsRails s u ∧ KeepsTiers s u ∧ KeepsOwners s u ∧ KeepsService s u ∧
        KeepsClock s u ∧ Posts s u (movedMarks s u .feedLost))

/-- QUALIFY_DEADLINE makes a QUALIFYING feed PRESENT (R56), and before its deadline changes nothing (log entry 3): BUDGET markers with
reason FEED_PRESENT are added if the available budget rose, and then one scan of the deferred queue is made (R64, R83). (1) Where the
budget did not rise, or every entry up to the first that blocks fails the fit test, nothing is granted. (2) The first entry that fits,
behind non-blocking ones that do not, is granted (R84): its lease is STARTING at its frozen charge, with its place on the grant order
list, and its first member RISING; each skipped entry gains a pass, and the scan ends where one of them now blocks, or where none
behind the grant is granted (R85). -/
def Obligations.QualifiedFeedIsPresent : Prop :=
  ∀ (s : State) (f : FeedId) (d : Nat), (s.feed f).state = .qualifying d →
    (s.now < d → exec (.qualifyDeadline f) s = .next s) ∧
    (d ≤ s.now →
      let v := s.setFeedRecord f { s.feed f with state := .present }
      (v.available = s.available ∨ v.ScanEnds s.queue →
        ∃ u, exec (.qualifyDeadline f) s = .next u ∧ u.feed f = { s.feed f with state := .present } ∧
          (∀ g, g ≠ f → u.feed g = s.feed g) ∧ s.available ≤ u.available ∧ u.margin = s.margin ∧ u.accounts = s.accounts ∧
          u.chargedTotal = s.chargedTotal ∧ u.committedTotal = s.committedTotal ∧ u.grantOrder = s.grantOrder ∧
          KeepsLeases s u ∧ KeepsQueue s u ∧ KeepsRails s u ∧ KeepsTiers s u ∧ KeepsOwners s u ∧ KeepsService s u ∧
          KeepsClock s u ∧ Posts s u (movedMarks s u .feedPresent)) ∧
      (∀ (skipped rest : List QueueEntry) (e : QueueEntry) (l : Lease) (m : Member) (ms : List Member),
        s.available < v.available → s.queue = skipped ++ e :: rest → (s.queue.map QueueEntry.handle).Nodup →
        (∀ x ∈ skipped, v.Unfit x ∧ x.blocking s.passLimit = false) → s.liveLease e.handle = some l →
        (l.state = .waiting ∨ l.state = .suspended) → l.members = m :: ms → (s.rail m.rail).state = .off →
        v.fits l.tenant l.charge = true →
        ((∃ x ∈ skipped, x.passed.blocking s.passLimit = true) ∨ (v.charge l.tenant l.charge).ScanEnds rest) →
        ∃ u, exec (.qualifyDeadline f) s = .next u ∧ u.feed f = { s.feed f with state := .present } ∧
          (∀ g, g ≠ f → u.feed g = s.feed g) ∧ u.margin = s.margin ∧
          u.slot e.handle.slot =
            { gen := e.handle.gen, lease := some { l with state := .starting (.rising 0), count := l.count + 1 } } ∧
          KeepsOtherSlots s u e.handle.slot ∧
          u.chargedTotal = s.chargedTotal + l.charge ∧ u.committedTotal = s.committedTotal + l.charge ∧
          (∀ n, u.account n =
            if n = l.tenant then { s.account n with charged := (s.account n).charged + l.charge } else s.account n) ∧
          u.grantOrder = s.grantOrder ++ [e.handle] ∧
          u.queue = skipped.map QueueEntry.passed ++ rest ∧ u.passLimit = s.passLimit ∧ u.defaultWait = s.defaultWait ∧
          u.rail m.rail =
            { s.rail m.rail with
              state := .rising (s.now + (m.voltage + (s.config m.rail).rampRate - 1) / (s.config m.rail).rampRate +
                (s.config m.rail).allowance)
              drive := .moving 0 m.voltage (s.config m.rail).rampRate s.now, currentLimit := m.current } ∧
          u.faultRecord m.rail = s.faultRecord m.rail ∧ KeepsOtherRails s u m.rail ∧ KeepsTiers s u ∧ KeepsOwners s u ∧
          KeepsService s u ∧ KeepsClock s u ∧
          Posts s u (movedMarks s u .feedPresent ++ [(l.tenant, .lease e.handle, .starting)])))

/-- The victim of a shed pass (R67): of the leases on the grant order list, one of the lowest class, and of those the one nearest the
tail. -/
def Obligations.VictimIsNewestOfTheLowestClass : Prop :=
  ∀ s : State,
    (s.victim = none ↔ s.grantOrder = []) ∧
      ∀ v, s.victim = some v →
        ∃ before after, s.grantOrder = before ++ v :: after ∧ (∀ h ∈ before, s.classOf v ≤ s.classOf h) ∧
          ∀ h ∈ after, s.classOf v < s.classOf h

/-- A shed pass leaves the committed total within the available budget (R65, R67), wherever the totals law (R59) and the law of the
grant order list (R63) hold before it. -/
def Obligations.ShedPassEndsWithinTheBudget : Prop :=
  ∀ h : Happening, TotalsLaw h.st → GrantOrderLaw h.st → BudgetLaw h.shedPass.st
end

