-- ==== Sys2Proof/Laws/State.lean ====
section
/-! SUPPORT. The small lemmas of State: a read after a write of a record, and one lemma for each field under each write. -/

namespace Sys2Proof.Machine

/-! ### Tables -/

@[simp] theorem vget_vset_same {α : Type} {n : Nat} (v : Vector α n) (i : Fin n) (x : α) : vget (vset v i x) i = x := by
  simp [vget, vset, Vector.get_eq_getElem]

theorem vget_vset_other {α : Type} {n : Nat} (v : Vector α n) {i j : Fin n} (x : α) (h : j ≠ i) :
    vget (vset v i x) j = vget v j := by
  have : i.val ≠ j.val := fun e => h (Fin.ext e.symm)
  simp [vget, vset, Vector.get_eq_getElem, this]

/-- A read of a table after a write of one entry. -/
theorem vget_vset {α : Type} {n : Nat} (v : Vector α n) (i j : Fin n) (x : α) :
    vget (vset v i x) j = if j = i then x else vget v j := by
  split
  · next h => subst h; simp
  · next h => exact vget_vset_other v x h

/-- Tables with equal entries are equal. -/
theorem vget_ext {α : Type} {n : Nat} {v w : Vector α n} (h : ∀ i, vget v i = vget w i) : v = w := by
  apply Vector.ext
  intro i hi
  simpa [vget, Vector.get_eq_getElem] using h ⟨i, hi⟩

@[simp] theorem vget_map {α β : Type} {n : Nat} (v : Vector α n) (f : α → β) (i : Fin n) :
    vget (v.map f) i = f (vget v i) := by
  simp [vget, Vector.get_eq_getElem]

@[simp] theorem vget_replicate {α : Type} {n : Nat} (x : α) (i : Fin n) : vget (Vector.replicate n x) i = x := by
  simp [vget, Vector.get_eq_getElem]

/-- Writing back what stands there changes nothing. -/
@[simp] theorem vset_vget {α : Type} {n : Nat} (v : Vector α n) (i : Fin n) : vset v i (vget v i) = v := by
  apply vget_ext
  intro j
  rw [vget_vset]
  split
  · next h => rw [h]
  · rfl

/-- Of two writes to one entry the second stands. -/
@[simp] theorem vset_vset {α : Type} {n : Nat} (v : Vector α n) (i : Fin n) (x y : α) :
    vset (vset v i x) i y = vset v i y := by
  apply vget_ext
  intro j
  simp only [vget_vset]
  split <;> rfl

namespace State

/-! ### The read of a record after a write of its table -/

@[simp] theorem slot_setSlot_same (s : State) (i : SlotId) (x : Slot) : (s.setSlot i x).slot i = x := by
  simp [slot, setSlot]
theorem slot_setSlot (s : State) (i j : SlotId) (x : Slot) : (s.setSlot i x).slot j = if j = i then x else s.slot j := by
  simp [slot, setSlot, vget_vset]

@[simp] theorem tierList_setTierList_same (s : State) (i : RailId) (x : List Tier) : (s.setTierList i x).tierList i = x := by
  simp [tierList, setTierList]
theorem tierList_setTierList (s : State) (i j : RailId) (x : List Tier) : (s.setTierList i x).tierList j = if j =
    i then x else s.tierList j := by
  simp [tierList, setTierList, vget_vset]

@[simp] theorem feed_setFeedRecord_same (s : State) (i : FeedId) (x : Feed) : (s.setFeedRecord i x).feed i = x := by
  simp [feed, setFeedRecord]
theorem feed_setFeedRecord (s : State) (i j : FeedId) (x : Feed) : (s.setFeedRecord i x).feed j = if j =
    i then x else s.feed j := by
  simp [feed, setFeedRecord, vget_vset]

@[simp] theorem account_setAccount_same (s : State) (i : TenantId) (x : Account) : (s.setAccount i x).account i = x := by
  simp [account, setAccount]
theorem account_setAccount (s : State) (i j : TenantId) (x : Account) : (s.setAccount i x).account j = if j =
    i then x else s.account j := by
  simp [account, setAccount, vget_vset]

@[simp] theorem config_setConfig_same (s : State) (i : RailId) (x : RailConfig) : (s.setConfig i x).config i = x := by
  simp [config, setConfig]
theorem config_setConfig (s : State) (i j : RailId) (x : RailConfig) : (s.setConfig i x).config j = if j =
    i then x else s.config j := by
  simp [config, setConfig, vget_vset]

@[simp] theorem rail_setRail_same (s : State) (i : RailId) (x : Rail) : (s.setRail i x).rail i = x := by
  simp [rail, setRail]
theorem rail_setRail (s : State) (i j : RailId) (x : Rail) : (s.setRail i x).rail j = if j = i then x else s.rail j := by
  simp [rail, setRail, vget_vset]

@[simp] theorem faultRecord_setFaultRecord_same (s : State) (i : RailId) (x : FaultRecord) :
    (s.setFaultRecord i x).faultRecord i = x := by
  simp [faultRecord, setFaultRecord]
theorem faultRecord_setFaultRecord (s : State) (i j : RailId) (x : FaultRecord) : (s.setFaultRecord i x).faultRecord j =
    if j = i then x else s.faultRecord j := by
  simp [faultRecord, setFaultRecord, vget_vset]

@[simp] theorem owned_setOwned_same (s : State) (i : RailId) (x : Ownership) : (s.setOwned i x).owned i = x := by
  simp [owned, setOwned]
theorem owned_setOwned (s : State) (i j : RailId) (x : Ownership) : (s.setOwned i x).owned j = if j = i then x else s.owned j := by
  simp [owned, setOwned, vget_vset]

@[simp] theorem tenant_setTenant_same (s : State) (i : TenantId) (x : Tenant) : (s.setTenant i x).tenant i = x := by
  simp [tenant, setTenant]
theorem tenant_setTenant (s : State) (i j : TenantId) (x : Tenant) : (s.setTenant i x).tenant j = if j =
    i then x else s.tenant j := by
  simp [tenant, setTenant, vget_vset]

@[simp] theorem context_setContext_same (s : State) (i : CtxId) (x : Option Context) : (s.setContext i x).context i = x := by
  simp [context, setContext]
theorem context_setContext (s : State) (i j : CtxId) (x : Option Context) : (s.setContext i x).context j = if j =
    i then x else s.context j := by
  simp [context, setContext, vget_vset]

/-! ### Each other field, and each other read, under each write -/

@[simp] theorem setSlot_now (s : State) (i : SlotId) (x : Slot) : (s.setSlot i x).now = s.now := rfl
@[simp] theorem setSlot_pending (s : State) (i : SlotId) (x : Slot) : (s.setSlot i x).pending = s.pending := rfl
@[simp] theorem setSlot_choices (s : State) (i : SlotId) (x : Slot) : (s.setSlot i x).choices = s.choices := rfl
@[simp] theorem setSlot_tiers (s : State) (i : SlotId) (x : Slot) : (s.setSlot i x).tiers = s.tiers := rfl
@[simp] theorem setSlot_tierList (s : State) (i : SlotId) (x : Slot) (j : RailId) : (s.setSlot i x).tierList j = s.tierList j := rfl
@[simp] theorem setSlot_feeds (s : State) (i : SlotId) (x : Slot) : (s.setSlot i x).feeds = s.feeds := rfl
@[simp] theorem setSlot_feed (s : State) (i : SlotId) (x : Slot) (j : FeedId) : (s.setSlot i x).feed j = s.feed j := rfl
@[simp] theorem setSlot_margin (s : State) (i : SlotId) (x : Slot) : (s.setSlot i x).margin = s.margin := rfl
@[simp] theorem setSlot_accounts (s : State) (i : SlotId) (x : Slot) : (s.setSlot i x).accounts = s.accounts := rfl
@[simp] theorem setSlot_account (s : State) (i : SlotId) (x : Slot) (j : TenantId) : (s.setSlot i x).account j = s.account j := rfl
@[simp] theorem setSlot_chargedTotal (s : State) (i : SlotId) (x : Slot) : (s.setSlot i x).chargedTotal = s.chargedTotal := rfl
@[simp] theorem setSlot_committedTotal (s : State) (i : SlotId) (x : Slot) : (s.setSlot i x).committedTotal =
    s.committedTotal := rfl
@[simp] theorem setSlot_grantOrder (s : State) (i : SlotId) (x : Slot) : (s.setSlot i x).grantOrder = s.grantOrder := rfl
@[simp] theorem setSlot_queue (s : State) (i : SlotId) (x : Slot) : (s.setSlot i x).queue = s.queue := rfl
@[simp] theorem setSlot_passLimit (s : State) (i : SlotId) (x : Slot) : (s.setSlot i x).passLimit = s.passLimit := rfl
@[simp] theorem setSlot_defaultWait (s : State) (i : SlotId) (x : Slot) : (s.setSlot i x).defaultWait = s.defaultWait := rfl
@[simp] theorem setSlot_railConfig (s : State) (i : SlotId) (x : Slot) : (s.setSlot i x).railConfig = s.railConfig := rfl
@[simp] theorem setSlot_config (s : State) (i : SlotId) (x : Slot) (j : RailId) : (s.setSlot i x).config j = s.config j := rfl
@[simp] theorem setSlot_rails (s : State) (i : SlotId) (x : Slot) : (s.setSlot i x).rails = s.rails := rfl
@[simp] theorem setSlot_rail (s : State) (i : SlotId) (x : Slot) (j : RailId) : (s.setSlot i x).rail j = s.rail j := rfl
@[simp] theorem setSlot_faults (s : State) (i : SlotId) (x : Slot) : (s.setSlot i x).faults = s.faults := rfl
@[simp] theorem setSlot_faultRecord (s : State) (i : SlotId) (x : Slot) (j : RailId) : (s.setSlot i x).faultRecord j =
    s.faultRecord j := rfl
@[simp] theorem setSlot_ownership (s : State) (i : SlotId) (x : Slot) : (s.setSlot i x).ownership = s.ownership := rfl
@[simp] theorem setSlot_owned (s : State) (i : SlotId) (x : Slot) (j : RailId) : (s.setSlot i x).owned j = s.owned j := rfl
@[simp] theorem setSlot_tenants (s : State) (i : SlotId) (x : Slot) : (s.setSlot i x).tenants = s.tenants := rfl
@[simp] theorem setSlot_tenant (s : State) (i : SlotId) (x : Slot) (j : TenantId) : (s.setSlot i x).tenant j = s.tenant j := rfl
@[simp] theorem setSlot_pool (s : State) (i : SlotId) (x : Slot) : (s.setSlot i x).pool = s.pool := rfl
@[simp] theorem setSlot_context (s : State) (i : SlotId) (x : Slot) (j : CtxId) : (s.setSlot i x).context j = s.context j := rfl
@[simp] theorem setSlot_lastGranted (s : State) (i : SlotId) (x : Slot) : (s.setSlot i x).lastGranted = s.lastGranted := rfl
@[simp] theorem setSlot_service (s : State) (i : SlotId) (x : Slot) : (s.setSlot i x).service = s.service := rfl
@[simp] theorem setSlot_controlRead (s : State) (i : SlotId) (x : Slot) : (s.setSlot i x).controlRead = s.controlRead := rfl
@[simp] theorem setSlot_descriptorBase (s : State) (i : SlotId) (x : Slot) : (s.setSlot i x).descriptorBase =
    s.descriptorBase := rfl
@[simp] theorem setSlot_lastAction (s : State) (i : SlotId) (x : Slot) : (s.setSlot i x).lastAction = s.lastAction := rfl
@[simp] theorem setSlot_outcome (s : State) (i : SlotId) (x : Slot) : (s.setSlot i x).outcome = s.outcome := rfl
@[simp] theorem setSlot_startError (s : State) (i : SlotId) (x : Slot) : (s.setSlot i x).startError = s.startError := rfl

@[simp] theorem setTierList_now (s : State) (i : RailId) (x : List Tier) : (s.setTierList i x).now = s.now := rfl
@[simp] theorem setTierList_pending (s : State) (i : RailId) (x : List Tier) : (s.setTierList i x).pending = s.pending := rfl
@[simp] theorem setTierList_choices (s : State) (i : RailId) (x : List Tier) : (s.setTierList i x).choices = s.choices := rfl
@[simp] theorem setTierList_slots (s : State) (i : RailId) (x : List Tier) : (s.setTierList i x).slots = s.slots := rfl
@[simp] theorem setTierList_slot (s : State) (i : RailId) (x : List Tier) (j : SlotId) : (s.setTierList i x).slot j =
    s.slot j := rfl
@[simp] theorem setTierList_feeds (s : State) (i : RailId) (x : List Tier) : (s.setTierList i x).feeds = s.feeds := rfl
@[simp] theorem setTierList_feed (s : State) (i : RailId) (x : List Tier) (j : FeedId) : (s.setTierList i x).feed j =
    s.feed j := rfl
@[simp] theorem setTierList_margin (s : State) (i : RailId) (x : List Tier) : (s.setTierList i x).margin = s.margin := rfl
@[simp] theorem setTierList_accounts (s : State) (i : RailId) (x : List Tier) : (s.setTierList i x).accounts = s.accounts := rfl
@[simp] theorem setTierList_account (s : State) (i : RailId) (x : List Tier) (j : TenantId) :
    (s.setTierList i x).account j = s.account j := rfl
@[simp] theorem setTierList_chargedTotal (s : State) (i : RailId) (x : List Tier) : (s.setTierList i x).chargedTotal =
    s.chargedTotal := rfl
@[simp] theorem setTierList_committedTotal (s : State) (i : RailId) (x : List Tier) : (s.setTierList i x).committedTotal =
    s.committedTotal := rfl
@[simp] theorem setTierList_grantOrder (s : State) (i : RailId) (x : List Tier) : (s.setTierList i x).grantOrder =
    s.grantOrder := rfl
@[simp] theorem setTierList_queue (s : State) (i : RailId) (x : List Tier) : (s.setTierList i x).queue = s.queue := rfl
@[simp] theorem setTierList_passLimit (s : State) (i : RailId) (x : List Tier) : (s.setTierList i x).passLimit = s.passLimit := rfl
@[simp] theorem setTierList_defaultWait (s : State) (i : RailId) (x : List Tier) : (s.setTierList i x).defaultWait =
    s.defaultWait := rfl
@[simp] theorem setTierList_railConfig (s : State) (i : RailId) (x : List Tier) : (s.setTierList i x).railConfig =
    s.railConfig := rfl
@[simp] theorem setTierList_config (s : State) (i : RailId) (x : List Tier) (j : RailId) : (s.setTierList i x).config j =
    s.config j := rfl
@[simp] theorem setTierList_rails (s : State) (i : RailId) (x : List Tier) : (s.setTierList i x).rails = s.rails := rfl
@[simp] theorem setTierList_rail (s : State) (i : RailId) (x : List Tier) (j : RailId) : (s.setTierList i x).rail j =
    s.rail j := rfl
@[simp] theorem setTierList_faults (s : State) (i : RailId) (x : List Tier) : (s.setTierList i x).faults = s.faults := rfl
@[simp] theorem setTierList_faultRecord (s : State) (i : RailId) (x : List Tier) (j : RailId) :
    (s.setTierList i x).faultRecord j = s.faultRecord j := rfl
@[simp] theorem setTierList_ownership (s : State) (i : RailId) (x : List Tier) : (s.setTierList i x).ownership = s.ownership := rfl
@[simp] theorem setTierList_owned (s : State) (i : RailId) (x : List Tier) (j : RailId) : (s.setTierList i x).owned j =
    s.owned j := rfl
@[simp] theorem setTierList_tenants (s : State) (i : RailId) (x : List Tier) : (s.setTierList i x).tenants = s.tenants := rfl
@[simp] theorem setTierList_tenant (s : State) (i : RailId) (x : List Tier) (j : TenantId) :
    (s.setTierList i x).tenant j = s.tenant j := rfl
@[simp] theorem setTierList_pool (s : State) (i : RailId) (x : List Tier) : (s.setTierList i x).pool = s.pool := rfl
@[simp] theorem setTierList_context (s : State) (i : RailId) (x : List Tier) (j : CtxId) : (s.setTierList i x).context j =
    s.context j := rfl
@[simp] theorem setTierList_lastGranted (s : State) (i : RailId) (x : List Tier) : (s.setTierList i x).lastGranted =
    s.lastGranted := rfl
@[simp] theorem setTierList_service (s : State) (i : RailId) (x : List Tier) : (s.setTierList i x).service = s.service := rfl
@[simp] theorem setTierList_controlRead (s : State) (i : RailId) (x : List Tier) : (s.setTierList i x).controlRead =
    s.controlRead := rfl
@[simp] theorem setTierList_descriptorBase (s : State) (i : RailId) (x : List Tier) : (s.setTierList i x).descriptorBase =
    s.descriptorBase := rfl
@[simp] theorem setTierList_lastAction (s : State) (i : RailId) (x : List Tier) : (s.setTierList i x).lastAction =
    s.lastAction := rfl
@[simp] theorem setTierList_outcome (s : State) (i : RailId) (x : List Tier) : (s.setTierList i x).outcome = s.outcome := rfl
@[simp] theorem setTierList_startError (s : State) (i : RailId) (x : List Tier) : (s.setTierList i x).startError =
    s.startError := rfl

@[simp] theorem setFeedRecord_now (s : State) (i : FeedId) (x : Feed) : (s.setFeedRecord i x).now = s.now := rfl
@[simp] theorem setFeedRecord_pending (s : State) (i : FeedId) (x : Feed) : (s.setFeedRecord i x).pending = s.pending := rfl
@[simp] theorem setFeedRecord_choices (s : State) (i : FeedId) (x : Feed) : (s.setFeedRecord i x).choices = s.choices := rfl
@[simp] theorem setFeedRecord_slots (s : State) (i : FeedId) (x : Feed) : (s.setFeedRecord i x).slots = s.slots := rfl
@[simp] theorem setFeedRecord_slot (s : State) (i : FeedId) (x : Feed) (j : SlotId) : (s.setFeedRecord i x).slot j = s.slot j := rfl
@[simp] theorem setFeedRecord_tiers (s : State) (i : FeedId) (x : Feed) : (s.setFeedRecord i x).tiers = s.tiers := rfl
@[simp] theorem setFeedRecord_tierList (s : State) (i : FeedId) (x : Feed) (j : RailId) :
    (s.setFeedRecord i x).tierList j = s.tierList j := rfl
@[simp] theorem setFeedRecord_margin (s : State) (i : FeedId) (x : Feed) : (s.setFeedRecord i x).margin = s.margin := rfl
@[simp] theorem setFeedRecord_accounts (s : State) (i : FeedId) (x : Feed) : (s.setFeedRecord i x).accounts = s.accounts := rfl
@[simp] theorem setFeedRecord_account (s : State) (i : FeedId) (x : Feed) (j : TenantId) :
    (s.setFeedRecord i x).account j = s.account j := rfl
@[simp] theorem setFeedRecord_chargedTotal (s : State) (i : FeedId) (x : Feed) : (s.setFeedRecord i x).chargedTotal =
    s.chargedTotal := rfl
@[simp] theorem setFeedRecord_committedTotal (s : State) (i : FeedId) (x : Feed) : (s.setFeedRecord i x).committedTotal =
    s.committedTotal := rfl
@[simp] theorem setFeedRecord_grantOrder (s : State) (i : FeedId) (x : Feed) : (s.setFeedRecord i x).grantOrder =
    s.grantOrder := rfl
@[simp] theorem setFeedRecord_queue (s : State) (i : FeedId) (x : Feed) : (s.setFeedRecord i x).queue = s.queue := rfl
@[simp] theorem setFeedRecord_passLimit (s : State) (i : FeedId) (x : Feed) : (s.setFeedRecord i x).passLimit = s.passLimit := rfl
@[simp] theorem setFeedRecord_defaultWait (s : State) (i : FeedId) (x : Feed) : (s.setFeedRecord i x).defaultWait =
    s.defaultWait := rfl
@[simp] theorem setFeedRecord_railConfig (s : State) (i : FeedId) (x : Feed) : (s.setFeedRecord i x).railConfig =
    s.railConfig := rfl
@[simp] theorem setFeedRecord_config (s : State) (i : FeedId) (x : Feed) (j : RailId) : (s.setFeedRecord i x).config j =
    s.config j := rfl
@[simp] theorem setFeedRecord_rails (s : State) (i : FeedId) (x : Feed) : (s.setFeedRecord i x).rails = s.rails := rfl
@[simp] theorem setFeedRecord_rail (s : State) (i : FeedId) (x : Feed) (j : RailId) : (s.setFeedRecord i x).rail j = s.rail j := rfl
@[simp] theorem setFeedRecord_faults (s : State) (i : FeedId) (x : Feed) : (s.setFeedRecord i x).faults = s.faults := rfl
@[simp] theorem setFeedRecord_faultRecord (s : State) (i : FeedId) (x : Feed) (j : RailId) :
    (s.setFeedRecord i x).faultRecord j = s.faultRecord j := rfl
@[simp] theorem setFeedRecord_ownership (s : State) (i : FeedId) (x : Feed) : (s.setFeedRecord i x).ownership = s.ownership := rfl
@[simp] theorem setFeedRecord_owned (s : State) (i : FeedId) (x : Feed) (j : RailId) : (s.setFeedRecord i x).owned j =
    s.owned j := rfl
@[simp] theorem setFeedRecord_tenants (s : State) (i : FeedId) (x : Feed) : (s.setFeedRecord i x).tenants = s.tenants := rfl
@[simp] theorem setFeedRecord_tenant (s : State) (i : FeedId) (x : Feed) (j : TenantId) : (s.setFeedRecord i x).tenant j =
    s.tenant j := rfl
@[simp] theorem setFeedRecord_pool (s : State) (i : FeedId) (x : Feed) : (s.setFeedRecord i x).pool = s.pool := rfl
@[simp] theorem setFeedRecord_context (s : State) (i : FeedId) (x : Feed) (j : CtxId) : (s.setFeedRecord i x).context j =
    s.context j := rfl
@[simp] theorem setFeedRecord_lastGranted (s : State) (i : FeedId) (x : Feed) : (s.setFeedRecord i x).lastGranted =
    s.lastGranted := rfl
@[simp] theorem setFeedRecord_service (s : State) (i : FeedId) (x : Feed) : (s.setFeedRecord i x).service = s.service := rfl
@[simp] theorem setFeedRecord_controlRead (s : State) (i : FeedId) (x : Feed) : (s.setFeedRecord i x).controlRead =
    s.controlRead := rfl
@[simp] theorem setFeedRecord_descriptorBase (s : State) (i : FeedId) (x : Feed) : (s.setFeedRecord i x).descriptorBase =
    s.descriptorBase := rfl
@[simp] theorem setFeedRecord_lastAction (s : State) (i : FeedId) (x : Feed) : (s.setFeedRecord i x).lastAction =
    s.lastAction := rfl
@[simp] theorem setFeedRecord_outcome (s : State) (i : FeedId) (x : Feed) : (s.setFeedRecord i x).outcome = s.outcome := rfl
@[simp] theorem setFeedRecord_startError (s : State) (i : FeedId) (x : Feed) : (s.setFeedRecord i x).startError =
    s.startError := rfl

@[simp] theorem setAccount_now (s : State) (i : TenantId) (x : Account) : (s.setAccount i x).now = s.now := rfl
@[simp] theorem setAccount_pending (s : State) (i : TenantId) (x : Account) : (s.setAccount i x).pending = s.pending := rfl
@[simp] theorem setAccount_choices (s : State) (i : TenantId) (x : Account) : (s.setAccount i x).choices = s.choices := rfl
@[simp] theorem setAccount_slots (s : State) (i : TenantId) (x : Account) : (s.setAccount i x).slots = s.slots := rfl
@[simp] theorem setAccount_slot (s : State) (i : TenantId) (x : Account) (j : SlotId) : (s.setAccount i x).slot j = s.slot j := rfl
@[simp] theorem setAccount_tiers (s : State) (i : TenantId) (x : Account) : (s.setAccount i x).tiers = s.tiers := rfl
@[simp] theorem setAccount_tierList (s : State) (i : TenantId) (x : Account) (j : RailId) :
    (s.setAccount i x).tierList j = s.tierList j := rfl
@[simp] theorem setAccount_feeds (s : State) (i : TenantId) (x : Account) : (s.setAccount i x).feeds = s.feeds := rfl
@[simp] theorem setAccount_feed (s : State) (i : TenantId) (x : Account) (j : FeedId) : (s.setAccount i x).feed j = s.feed j := rfl
@[simp] theorem setAccount_margin (s : State) (i : TenantId) (x : Account) : (s.setAccount i x).margin = s.margin := rfl
@[simp] theorem setAccount_chargedTotal (s : State) (i : TenantId) (x : Account) : (s.setAccount i x).chargedTotal =
    s.chargedTotal := rfl
@[simp] theorem setAccount_committedTotal (s : State) (i : TenantId) (x : Account) : (s.setAccount i x).committedTotal =
    s.committedTotal := rfl
@[simp] theorem setAccount_grantOrder (s : State) (i : TenantId) (x : Account) : (s.setAccount i x).grantOrder = s.grantOrder := rfl
@[simp] theorem setAccount_queue (s : State) (i : TenantId) (x : Account) : (s.setAccount i x).queue = s.queue := rfl
@[simp] theorem setAccount_passLimit (s : State) (i : TenantId) (x : Account) : (s.setAccount i x).passLimit = s.passLimit := rfl
@[simp] theorem setAccount_defaultWait (s : State) (i : TenantId) (x : Account) : (s.setAccount i x).defaultWait =
    s.defaultWait := rfl
@[simp] theorem setAccount_railConfig (s : State) (i : TenantId) (x : Account) : (s.setAccount i x).railConfig = s.railConfig := rfl
@[simp] theorem setAccount_config (s : State) (i : TenantId) (x : Account) (j : RailId) : (s.setAccount i x).config j =
    s.config j := rfl
@[simp] theorem setAccount_rails (s : State) (i : TenantId) (x : Account) : (s.setAccount i x).rails = s.rails := rfl
@[simp] theorem setAccount_rail (s : State) (i : TenantId) (x : Account) (j : RailId) : (s.setAccount i x).rail j = s.rail j := rfl
@[simp] theorem setAccount_faults (s : State) (i : TenantId) (x : Account) : (s.setAccount i x).faults = s.faults := rfl
@[simp] theorem setAccount_faultRecord (s : State) (i : TenantId) (x : Account) (j : RailId) :
    (s.setAccount i x).faultRecord j = s.faultRecord j := rfl
@[simp] theorem setAccount_ownership (s : State) (i : TenantId) (x : Account) : (s.setAccount i x).ownership = s.ownership := rfl
@[simp] theorem setAccount_owned (s : State) (i : TenantId) (x : Account) (j : RailId) : (s.setAccount i x).owned j =
    s.owned j := rfl
@[simp] theorem setAccount_tenants (s : State) (i : TenantId) (x : Account) : (s.setAccount i x).tenants = s.tenants := rfl
@[simp] theorem setAccount_tenant (s : State) (i : TenantId) (x : Account) (j : TenantId) :
    (s.setAccount i x).tenant j = s.tenant j := rfl
@[simp] theorem setAccount_pool (s : State) (i : TenantId) (x : Account) : (s.setAccount i x).pool = s.pool := rfl
@[simp] theorem setAccount_context (s : State) (i : TenantId) (x : Account) (j : CtxId) : (s.setAccount i x).context j =
    s.context j := rfl
@[simp] theorem setAccount_lastGranted (s : State) (i : TenantId) (x : Account) : (s.setAccount i x).lastGranted =
    s.lastGranted := rfl
@[simp] theorem setAccount_service (s : State) (i : TenantId) (x : Account) : (s.setAccount i x).service = s.service := rfl
@[simp] theorem setAccount_controlRead (s : State) (i : TenantId) (x : Account) : (s.setAccount i x).controlRead =
    s.controlRead := rfl
@[simp] theorem setAccount_descriptorBase (s : State) (i : TenantId) (x : Account) : (s.setAccount i x).descriptorBase =
    s.descriptorBase := rfl
@[simp] theorem setAccount_lastAction (s : State) (i : TenantId) (x : Account) : (s.setAccount i x).lastAction = s.lastAction := rfl
@[simp] theorem setAccount_outcome (s : State) (i : TenantId) (x : Account) : (s.setAccount i x).outcome = s.outcome := rfl
@[simp] theorem setAccount_startError (s : State) (i : TenantId) (x : Account) : (s.setAccount i x).startError = s.startError := rfl

@[simp] theorem setConfig_now (s : State) (i : RailId) (x : RailConfig) : (s.setConfig i x).now = s.now := rfl
@[simp] theorem setConfig_pending (s : State) (i : RailId) (x : RailConfig) : (s.setConfig i x).pending = s.pending := rfl
@[simp] theorem setConfig_choices (s : State) (i : RailId) (x : RailConfig) : (s.setConfig i x).choices = s.choices := rfl
@[simp] theorem setConfig_slots (s : State) (i : RailId) (x : RailConfig) : (s.setConfig i x).slots = s.slots := rfl
@[simp] theorem setConfig_slot (s : State) (i : RailId) (x : RailConfig) (j : SlotId) : (s.setConfig i x).slot j = s.slot j := rfl
@[simp] theorem setConfig_tiers (s : State) (i : RailId) (x : RailConfig) : (s.setConfig i x).tiers = s.tiers := rfl
@[simp] theorem setConfig_tierList (s : State) (i : RailId) (x : RailConfig) (j : RailId) :
    (s.setConfig i x).tierList j = s.tierList j := rfl
@[simp] theorem setConfig_feeds (s : State) (i : RailId) (x : RailConfig) : (s.setConfig i x).feeds = s.feeds := rfl
@[simp] theorem setConfig_feed (s : State) (i : RailId) (x : RailConfig) (j : FeedId) : (s.setConfig i x).feed j = s.feed j := rfl
@[simp] theorem setConfig_margin (s : State) (i : RailId) (x : RailConfig) : (s.setConfig i x).margin = s.margin := rfl
@[simp] theorem setConfig_accounts (s : State) (i : RailId) (x : RailConfig) : (s.setConfig i x).accounts = s.accounts := rfl
@[simp] theorem setConfig_account (s : State) (i : RailId) (x : RailConfig) (j : TenantId) :
    (s.setConfig i x).account j = s.account j := rfl
@[simp] theorem setConfig_chargedTotal (s : State) (i : RailId) (x : RailConfig) : (s.setConfig i x).chargedTotal =
    s.chargedTotal := rfl
@[simp] theorem setConfig_committedTotal (s : State) (i : RailId) (x : RailConfig) : (s.setConfig i x).committedTotal =
    s.committedTotal := rfl
@[simp] theorem setConfig_grantOrder (s : State) (i : RailId) (x : RailConfig) : (s.setConfig i x).grantOrder = s.grantOrder := rfl
@[simp] theorem setConfig_queue (s : State) (i : RailId) (x : RailConfig) : (s.setConfig i x).queue = s.queue := rfl
@[simp] theorem setConfig_passLimit (s : State) (i : RailId) (x : RailConfig) : (s.setConfig i x).passLimit = s.passLimit := rfl
@[simp] theorem setConfig_defaultWait (s : State) (i : RailId) (x : RailConfig) : (s.setConfig i x).defaultWait =
    s.defaultWait := rfl
@[simp] theorem setConfig_rails (s : State) (i : RailId) (x : RailConfig) : (s.setConfig i x).rails = s.rails := rfl
@[simp] theorem setConfig_rail (s : State) (i : RailId) (x : RailConfig) (j : RailId) : (s.setConfig i x).rail j = s.rail j := rfl
@[simp] theorem setConfig_faults (s : State) (i : RailId) (x : RailConfig) : (s.setConfig i x).faults = s.faults := rfl
@[simp] theorem setConfig_faultRecord (s : State) (i : RailId) (x : RailConfig) (j : RailId) :
    (s.setConfig i x).faultRecord j = s.faultRecord j := rfl
@[simp] theorem setConfig_ownership (s : State) (i : RailId) (x : RailConfig) : (s.setConfig i x).ownership = s.ownership := rfl
@[simp] theorem setConfig_owned (s : State) (i : RailId) (x : RailConfig) (j : RailId) : (s.setConfig i x).owned j =
    s.owned j := rfl
@[simp] theorem setConfig_tenants (s : State) (i : RailId) (x : RailConfig) : (s.setConfig i x).tenants = s.tenants := rfl
@[simp] theorem setConfig_tenant (s : State) (i : RailId) (x : RailConfig) (j : TenantId) :
    (s.setConfig i x).tenant j = s.tenant j := rfl
@[simp] theorem setConfig_pool (s : State) (i : RailId) (x : RailConfig) : (s.setConfig i x).pool = s.pool := rfl
@[simp] theorem setConfig_context (s : State) (i : RailId) (x : RailConfig) (j : CtxId) : (s.setConfig i x).context j =
    s.context j := rfl
@[simp] theorem setConfig_lastGranted (s : State) (i : RailId) (x : RailConfig) : (s.setConfig i x).lastGranted =
    s.lastGranted := rfl
@[simp] theorem setConfig_service (s : State) (i : RailId) (x : RailConfig) : (s.setConfig i x).service = s.service := rfl
@[simp] theorem setConfig_controlRead (s : State) (i : RailId) (x : RailConfig) : (s.setConfig i x).controlRead =
    s.controlRead := rfl
@[simp] theorem setConfig_descriptorBase (s : State) (i : RailId) (x : RailConfig) : (s.setConfig i x).descriptorBase =
    s.descriptorBase := rfl
@[simp] theorem setConfig_lastAction (s : State) (i : RailId) (x : RailConfig) : (s.setConfig i x).lastAction = s.lastAction := rfl
@[simp] theorem setConfig_outcome (s : State) (i : RailId) (x : RailConfig) : (s.setConfig i x).outcome = s.outcome := rfl
@[simp] theorem setConfig_startError (s : State) (i : RailId) (x : RailConfig) : (s.setConfig i x).startError = s.startError := rfl

@[simp] theorem setRail_now (s : State) (i : RailId) (x : Rail) : (s.setRail i x).now = s.now := rfl
@[simp] theorem setRail_pending (s : State) (i : RailId) (x : Rail) : (s.setRail i x).pending = s.pending := rfl
@[simp] theorem setRail_choices (s : State) (i : RailId) (x : Rail) : (s.setRail i x).choices = s.choices := rfl
@[simp] theorem setRail_slots (s : State) (i : RailId) (x : Rail) : (s.setRail i x).slots = s.slots := rfl
@[simp] theorem setRail_slot (s : State) (i : RailId) (x : Rail) (j : SlotId) : (s.setRail i x).slot j = s.slot j := rfl
@[simp] theorem setRail_tiers (s : State) (i : RailId) (x : Rail) : (s.setRail i x).tiers = s.tiers := rfl
@[simp] theorem setRail_tierList (s : State) (i : RailId) (x : Rail) (j : RailId) : (s.setRail i x).tierList j = s.tierList j := rfl
@[simp] theorem setRail_feeds (s : State) (i : RailId) (x : Rail) : (s.setRail i x).feeds = s.feeds := rfl
@[simp] theorem setRail_feed (s : State) (i : RailId) (x : Rail) (j : FeedId) : (s.setRail i x).feed j = s.feed j := rfl
@[simp] theorem setRail_margin (s : State) (i : RailId) (x : Rail) : (s.setRail i x).margin = s.margin := rfl
@[simp] theorem setRail_accounts (s : State) (i : RailId) (x : Rail) : (s.setRail i x).accounts = s.accounts := rfl
@[simp] theorem setRail_account (s : State) (i : RailId) (x : Rail) (j : TenantId) : (s.setRail i x).account j = s.account j := rfl
@[simp] theorem setRail_chargedTotal (s : State) (i : RailId) (x : Rail) : (s.setRail i x).chargedTotal = s.chargedTotal := rfl
@[simp] theorem setRail_committedTotal (s : State) (i : RailId) (x : Rail) : (s.setRail i x).committedTotal =
    s.committedTotal := rfl
@[simp] theorem setRail_grantOrder (s : State) (i : RailId) (x : Rail) : (s.setRail i x).grantOrder = s.grantOrder := rfl
@[simp] theorem setRail_queue (s : State) (i : RailId) (x : Rail) : (s.setRail i x).queue = s.queue := rfl
@[simp] theorem setRail_passLimit (s : State) (i : RailId) (x : Rail) : (s.setRail i x).passLimit = s.passLimit := rfl
@[simp] theorem setRail_defaultWait (s : State) (i : RailId) (x : Rail) : (s.setRail i x).defaultWait = s.defaultWait := rfl
@[simp] theorem setRail_railConfig (s : State) (i : RailId) (x : Rail) : (s.setRail i x).railConfig = s.railConfig := rfl
@[simp] theorem setRail_config (s : State) (i : RailId) (x : Rail) (j : RailId) : (s.setRail i x).config j = s.config j := rfl
@[simp] theorem setRail_faults (s : State) (i : RailId) (x : Rail) : (s.setRail i x).faults = s.faults := rfl
@[simp] theorem setRail_faultRecord (s : State) (i : RailId) (x : Rail) (j : RailId) : (s.setRail i x).faultRecord j =
    s.faultRecord j := rfl
@[simp] theorem setRail_ownership (s : State) (i : RailId) (x : Rail) : (s.setRail i x).ownership = s.ownership := rfl
@[simp] theorem setRail_owned (s : State) (i : RailId) (x : Rail) (j : RailId) : (s.setRail i x).owned j = s.owned j := rfl
@[simp] theorem setRail_tenants (s : State) (i : RailId) (x : Rail) : (s.setRail i x).tenants = s.tenants := rfl
@[simp] theorem setRail_tenant (s : State) (i : RailId) (x : Rail) (j : TenantId) : (s.setRail i x).tenant j = s.tenant j := rfl
@[simp] theorem setRail_pool (s : State) (i : RailId) (x : Rail) : (s.setRail i x).pool = s.pool := rfl
@[simp] theorem setRail_context (s : State) (i : RailId) (x : Rail) (j : CtxId) : (s.setRail i x).context j = s.context j := rfl
@[simp] theorem setRail_lastGranted (s : State) (i : RailId) (x : Rail) : (s.setRail i x).lastGranted = s.lastGranted := rfl
@[simp] theorem setRail_service (s : State) (i : RailId) (x : Rail) : (s.setRail i x).service = s.service := rfl
@[simp] theorem setRail_controlRead (s : State) (i : RailId) (x : Rail) : (s.setRail i x).controlRead = s.controlRead := rfl
@[simp] theorem setRail_descriptorBase (s : State) (i : RailId) (x : Rail) : (s.setRail i x).descriptorBase =
    s.descriptorBase := rfl
@[simp] theorem setRail_lastAction (s : State) (i : RailId) (x : Rail) : (s.setRail i x).lastAction = s.lastAction := rfl
@[simp] theorem setRail_outcome (s : State) (i : RailId) (x : Rail) : (s.setRail i x).outcome = s.outcome := rfl
@[simp] theorem setRail_startError (s : State) (i : RailId) (x : Rail) : (s.setRail i x).startError = s.startError := rfl

@[simp] theorem setFaultRecord_now (s : State) (i : RailId) (x : FaultRecord) : (s.setFaultRecord i x).now = s.now := rfl
@[simp] theorem setFaultRecord_pending (s : State) (i : RailId) (x : FaultRecord) : (s.setFaultRecord i x).pending =
    s.pending := rfl
@[simp] theorem setFaultRecord_choices (s : State) (i : RailId) (x : FaultRecord) : (s.setFaultRecord i x).choices =
    s.choices := rfl
@[simp] theorem setFaultRecord_slots (s : State) (i : RailId) (x : FaultRecord) : (s.setFaultRecord i x).slots = s.slots := rfl
@[simp] theorem setFaultRecord_slot (s : State) (i : RailId) (x : FaultRecord) (j : SlotId) :
    (s.setFaultRecord i x).slot j = s.slot j := rfl
@[simp] theorem setFaultRecord_tiers (s : State) (i : RailId) (x : FaultRecord) : (s.setFaultRecord i x).tiers = s.tiers := rfl
@[simp] theorem setFaultRecord_tierList (s : State) (i : RailId) (x : FaultRecord) (j : RailId) :
    (s.setFaultRecord i x).tierList j = s.tierList j := rfl
@[simp] theorem setFaultRecord_feeds (s : State) (i : RailId) (x : FaultRecord) : (s.setFaultRecord i x).feeds = s.feeds := rfl
@[simp] theorem setFaultRecord_feed (s : State) (i : RailId) (x : FaultRecord) (j : FeedId) :
    (s.setFaultRecord i x).feed j = s.feed j := rfl
@[simp] theorem setFaultRecord_margin (s : State) (i : RailId) (x : FaultRecord) : (s.setFaultRecord i x).margin = s.margin := rfl
@[simp] theorem setFaultRecord_accounts (s : State) (i : RailId) (x : FaultRecord) : (s.setFaultRecord i x).accounts =
    s.accounts := rfl
@[simp] theorem setFaultRecord_account (s : State) (i : RailId) (x : FaultRecord) (j : TenantId) :
    (s.setFaultRecord i x).account j = s.account j := rfl
@[simp] theorem setFaultRecord_chargedTotal (s : State) (i : RailId) (x : FaultRecord) :
    (s.setFaultRecord i x).chargedTotal = s.chargedTotal := rfl
@[simp] theorem setFaultRecord_committedTotal (s : State) (i : RailId) (x : FaultRecord) :
    (s.setFaultRecord i x).committedTotal = s.committedTotal := rfl
@[simp] theorem setFaultRecord_grantOrder (s : State) (i : RailId) (x : FaultRecord) : (s.setFaultRecord i x).grantOrder =
    s.grantOrder := rfl
@[simp] theorem setFaultRecord_queue (s : State) (i : RailId) (x : FaultRecord) : (s.setFaultRecord i x).queue = s.queue := rfl
@[simp] theorem setFaultRecord_passLimit (s : State) (i : RailId) (x : FaultRecord) : (s.setFaultRecord i x).passLimit =
    s.passLimit := rfl
@[simp] theorem setFaultRecord_defaultWait (s : State) (i : RailId) (x : FaultRecord) :
    (s.setFaultRecord i x).defaultWait = s.defaultWait := rfl
@[simp] theorem setFaultRecord_railConfig (s : State) (i : RailId) (x : FaultRecord) : (s.setFaultRecord i x).railConfig =
    s.railConfig := rfl
@[simp] theorem setFaultRecord_config (s : State) (i : RailId) (x : FaultRecord) (j : RailId) :
    (s.setFaultRecord i x).config j = s.config j := rfl
@[simp] theorem setFaultRecord_rails (s : State) (i : RailId) (x : FaultRecord) : (s.setFaultRecord i x).rails = s.rails := rfl
@[simp] theorem setFaultRecord_rail (s : State) (i : RailId) (x : FaultRecord) (j : RailId) :
    (s.setFaultRecord i x).rail j = s.rail j := rfl
@[simp] theorem setFaultRecord_ownership (s : State) (i : RailId) (x : FaultRecord) : (s.setFaultRecord i x).ownership =
    s.ownership := rfl
@[simp] theorem setFaultRecord_owned (s : State) (i : RailId) (x : FaultRecord) (j : RailId) :
    (s.setFaultRecord i x).owned j = s.owned j := rfl
@[simp] theorem setFaultRecord_tenants (s : State) (i : RailId) (x : FaultRecord) : (s.setFaultRecord i x).tenants =
    s.tenants := rfl
@[simp] theorem setFaultRecord_tenant (s : State) (i : RailId) (x : FaultRecord) (j : TenantId) :
    (s.setFaultRecord i x).tenant j = s.tenant j := rfl
@[simp] theorem setFaultRecord_pool (s : State) (i : RailId) (x : FaultRecord) : (s.setFaultRecord i x).pool = s.pool := rfl
@[simp] theorem setFaultRecord_context (s : State) (i : RailId) (x : FaultRecord) (j : CtxId) :
    (s.setFaultRecord i x).context j = s.context j := rfl
@[simp] theorem setFaultRecord_lastGranted (s : State) (i : RailId) (x : FaultRecord) :
    (s.setFaultRecord i x).lastGranted = s.lastGranted := rfl
@[simp] theorem setFaultRecord_service (s : State) (i : RailId) (x : FaultRecord) : (s.setFaultRecord i x).service =
    s.service := rfl
@[simp] theorem setFaultRecord_controlRead (s : State) (i : RailId) (x : FaultRecord) :
    (s.setFaultRecord i x).controlRead = s.controlRead := rfl
@[simp] theorem setFaultRecord_descriptorBase (s : State) (i : RailId) (x : FaultRecord) :
    (s.setFaultRecord i x).descriptorBase = s.descriptorBase := rfl
@[simp] theorem setFaultRecord_lastAction (s : State) (i : RailId) (x : FaultRecord) : (s.setFaultRecord i x).lastAction =
    s.lastAction := rfl
@[simp] theorem setFaultRecord_outcome (s : State) (i : RailId) (x : FaultRecord) : (s.setFaultRecord i x).outcome =
    s.outcome := rfl
@[simp] theorem setFaultRecord_startError (s : State) (i : RailId) (x : FaultRecord) : (s.setFaultRecord i x).startError =
    s.startError := rfl

@[simp] theorem setOwned_now (s : State) (i : RailId) (x : Ownership) : (s.setOwned i x).now = s.now := rfl
@[simp] theorem setOwned_pending (s : State) (i : RailId) (x : Ownership) : (s.setOwned i x).pending = s.pending := rfl
@[simp] theorem setOwned_choices (s : State) (i : RailId) (x : Ownership) : (s.setOwned i x).choices = s.choices := rfl
@[simp] theorem setOwned_slots (s : State) (i : RailId) (x : Ownership) : (s.setOwned i x).slots = s.slots := rfl
@[simp] theorem setOwned_slot (s : State) (i : RailId) (x : Ownership) (j : SlotId) : (s.setOwned i x).slot j = s.slot j := rfl
@[simp] theorem setOwned_tiers (s : State) (i : RailId) (x : Ownership) : (s.setOwned i x).tiers = s.tiers := rfl
@[simp] theorem setOwned_tierList (s : State) (i : RailId) (x : Ownership) (j : RailId) : (s.setOwned i x).tierList j =
    s.tierList j := rfl
@[simp] theorem setOwned_feeds (s : State) (i : RailId) (x : Ownership) : (s.setOwned i x).feeds = s.feeds := rfl
@[simp] theorem setOwned_feed (s : State) (i : RailId) (x : Ownership) (j : FeedId) : (s.setOwned i x).feed j = s.feed j := rfl
@[simp] theorem setOwned_margin (s : State) (i : RailId) (x : Ownership) : (s.setOwned i x).margin = s.margin := rfl
@[simp] theorem setOwned_accounts (s : State) (i : RailId) (x : Ownership) : (s.setOwned i x).accounts = s.accounts := rfl
@[simp] theorem setOwned_account (s : State) (i : RailId) (x : Ownership) (j : TenantId) : (s.setOwned i x).account j =
    s.account j := rfl
@[simp] theorem setOwned_chargedTotal (s : State) (i : RailId) (x : Ownership) : (s.setOwned i x).chargedTotal =
    s.chargedTotal := rfl
@[simp] theorem setOwned_committedTotal (s : State) (i : RailId) (x : Ownership) : (s.setOwned i x).committedTotal =
    s.committedTotal := rfl
@[simp] theorem setOwned_grantOrder (s : State) (i : RailId) (x : Ownership) : (s.setOwned i x).grantOrder = s.grantOrder := rfl
@[simp] theorem setOwned_queue (s : State) (i : RailId) (x : Ownership) : (s.setOwned i x).queue = s.queue := rfl
@[simp] theorem setOwned_passLimit (s : State) (i : RailId) (x : Ownership) : (s.setOwned i x).passLimit = s.passLimit := rfl
@[simp] theorem setOwned_defaultWait (s : State) (i : RailId) (x : Ownership) : (s.setOwned i x).defaultWait = s.defaultWait := rfl
@[simp] theorem setOwned_railConfig (s : State) (i : RailId) (x : Ownership) : (s.setOwned i x).railConfig = s.railConfig := rfl
@[simp] theorem setOwned_config (s : State) (i : RailId) (x : Ownership) (j : RailId) : (s.setOwned i x).config j =
    s.config j := rfl
@[simp] theorem setOwned_rails (s : State) (i : RailId) (x : Ownership) : (s.setOwned i x).rails = s.rails := rfl
@[simp] theorem setOwned_rail (s : State) (i : RailId) (x : Ownership) (j : RailId) : (s.setOwned i x).rail j = s.rail j := rfl
@[simp] theorem setOwned_faults (s : State) (i : RailId) (x : Ownership) : (s.setOwned i x).faults = s.faults := rfl
@[simp] theorem setOwned_faultRecord (s : State) (i : RailId) (x : Ownership) (j : RailId) :
    (s.setOwned i x).faultRecord j = s.faultRecord j := rfl
@[simp] theorem setOwned_tenants (s : State) (i : RailId) (x : Ownership) : (s.setOwned i x).tenants = s.tenants := rfl
@[simp] theorem setOwned_tenant (s : State) (i : RailId) (x : Ownership) (j : TenantId) : (s.setOwned i x).tenant j =
    s.tenant j := rfl
@[simp] theorem setOwned_pool (s : State) (i : RailId) (x : Ownership) : (s.setOwned i x).pool = s.pool := rfl
@[simp] theorem setOwned_context (s : State) (i : RailId) (x : Ownership) (j : CtxId) : (s.setOwned i x).context j =
    s.context j := rfl
@[simp] theorem setOwned_lastGranted (s : State) (i : RailId) (x : Ownership) : (s.setOwned i x).lastGranted = s.lastGranted := rfl
@[simp] theorem setOwned_service (s : State) (i : RailId) (x : Ownership) : (s.setOwned i x).service = s.service := rfl
@[simp] theorem setOwned_controlRead (s : State) (i : RailId) (x : Ownership) : (s.setOwned i x).controlRead = s.controlRead := rfl
@[simp] theorem setOwned_descriptorBase (s : State) (i : RailId) (x : Ownership) : (s.setOwned i x).descriptorBase =
    s.descriptorBase := rfl
@[simp] theorem setOwned_lastAction (s : State) (i : RailId) (x : Ownership) : (s.setOwned i x).lastAction = s.lastAction := rfl
@[simp] theorem setOwned_outcome (s : State) (i : RailId) (x : Ownership) : (s.setOwned i x).outcome = s.outcome := rfl
@[simp] theorem setOwned_startError (s : State) (i : RailId) (x : Ownership) : (s.setOwned i x).startError = s.startError := rfl

@[simp] theorem setTenant_now (s : State) (i : TenantId) (x : Tenant) : (s.setTenant i x).now = s.now := rfl
@[simp] theorem setTenant_pending (s : State) (i : TenantId) (x : Tenant) : (s.setTenant i x).pending = s.pending := rfl
@[simp] theorem setTenant_choices (s : State) (i : TenantId) (x : Tenant) : (s.setTenant i x).choices = s.choices := rfl
@[simp] theorem setTenant_slots (s : State) (i : TenantId) (x : Tenant) : (s.setTenant i x).slots = s.slots := rfl
@[simp] theorem setTenant_slot (s : State) (i : TenantId) (x : Tenant) (j : SlotId) : (s.setTenant i x).slot j = s.slot j := rfl
@[simp] theorem setTenant_tiers (s : State) (i : TenantId) (x : Tenant) : (s.setTenant i x).tiers = s.tiers := rfl
@[simp] theorem setTenant_tierList (s : State) (i : TenantId) (x : Tenant) (j : RailId) : (s.setTenant i x).tierList j =
    s.tierList j := rfl
@[simp] theorem setTenant_feeds (s : State) (i : TenantId) (x : Tenant) : (s.setTenant i x).feeds = s.feeds := rfl
@[simp] theorem setTenant_feed (s : State) (i : TenantId) (x : Tenant) (j : FeedId) : (s.setTenant i x).feed j = s.feed j := rfl
@[simp] theorem setTenant_margin (s : State) (i : TenantId) (x : Tenant) : (s.setTenant i x).margin = s.margin := rfl
@[simp] theorem setTenant_accounts (s : State) (i : TenantId) (x : Tenant) : (s.setTenant i x).accounts = s.accounts := rfl
@[simp] theorem setTenant_account (s : State) (i : TenantId) (x : Tenant) (j : TenantId) : (s.setTenant i x).account j =
    s.account j := rfl
@[simp] theorem setTenant_chargedTotal (s : State) (i : TenantId) (x : Tenant) : (s.setTenant i x).chargedTotal =
    s.chargedTotal := rfl
@[simp] theorem setTenant_committedTotal (s : State) (i : TenantId) (x : Tenant) : (s.setTenant i x).committedTotal =
    s.committedTotal := rfl
@[simp] theorem setTenant_grantOrder (s : State) (i : TenantId) (x : Tenant) : (s.setTenant i x).grantOrder = s.grantOrder := rfl
@[simp] theorem setTenant_queue (s : State) (i : TenantId) (x : Tenant) : (s.setTenant i x).queue = s.queue := rfl
@[simp] theorem setTenant_passLimit (s : State) (i : TenantId) (x : Tenant) : (s.setTenant i x).passLimit = s.passLimit := rfl
@[simp] theorem setTenant_defaultWait (s : State) (i : TenantId) (x : Tenant) : (s.setTenant i x).defaultWait = s.defaultWait := rfl
@[simp] theorem setTenant_railConfig (s : State) (i : TenantId) (x : Tenant) : (s.setTenant i x).railConfig = s.railConfig := rfl
@[simp] theorem setTenant_config (s : State) (i : TenantId) (x : Tenant) (j : RailId) : (s.setTenant i x).config j =
    s.config j := rfl
@[simp] theorem setTenant_rails (s : State) (i : TenantId) (x : Tenant) : (s.setTenant i x).rails = s.rails := rfl
@[simp] theorem setTenant_rail (s : State) (i : TenantId) (x : Tenant) (j : RailId) : (s.setTenant i x).rail j = s.rail j := rfl
@[simp] theorem setTenant_faults (s : State) (i : TenantId) (x : Tenant) : (s.setTenant i x).faults = s.faults := rfl
@[simp] theorem setTenant_faultRecord (s : State) (i : TenantId) (x : Tenant) (j : RailId) :
    (s.setTenant i x).faultRecord j = s.faultRecord j := rfl
@[simp] theorem setTenant_ownership (s : State) (i : TenantId) (x : Tenant) : (s.setTenant i x).ownership = s.ownership := rfl
@[simp] theorem setTenant_owned (s : State) (i : TenantId) (x : Tenant) (j : RailId) : (s.setTenant i x).owned j = s.owned j := rfl
@[simp] theorem setTenant_pool (s : State) (i : TenantId) (x : Tenant) : (s.setTenant i x).pool = s.pool := rfl
@[simp] theorem setTenant_context (s : State) (i : TenantId) (x : Tenant) (j : CtxId) : (s.setTenant i x).context j =
    s.context j := rfl
@[simp] theorem setTenant_lastGranted (s : State) (i : TenantId) (x : Tenant) : (s.setTenant i x).lastGranted = s.lastGranted := rfl
@[simp] theorem setTenant_service (s : State) (i : TenantId) (x : Tenant) : (s.setTenant i x).service = s.service := rfl
@[simp] theorem setTenant_controlRead (s : State) (i : TenantId) (x : Tenant) : (s.setTenant i x).controlRead = s.controlRead := rfl
@[simp] theorem setTenant_descriptorBase (s : State) (i : TenantId) (x : Tenant) : (s.setTenant i x).descriptorBase =
    s.descriptorBase := rfl
@[simp] theorem setTenant_lastAction (s : State) (i : TenantId) (x : Tenant) : (s.setTenant i x).lastAction = s.lastAction := rfl
@[simp] theorem setTenant_outcome (s : State) (i : TenantId) (x : Tenant) : (s.setTenant i x).outcome = s.outcome := rfl
@[simp] theorem setTenant_startError (s : State) (i : TenantId) (x : Tenant) : (s.setTenant i x).startError = s.startError := rfl

@[simp] theorem setContext_now (s : State) (i : CtxId) (x : Option Context) : (s.setContext i x).now = s.now := rfl
@[simp] theorem setContext_pending (s : State) (i : CtxId) (x : Option Context) : (s.setContext i x).pending = s.pending := rfl
@[simp] theorem setContext_choices (s : State) (i : CtxId) (x : Option Context) : (s.setContext i x).choices = s.choices := rfl
@[simp] theorem setContext_slots (s : State) (i : CtxId) (x : Option Context) : (s.setContext i x).slots = s.slots := rfl
@[simp] theorem setContext_slot (s : State) (i : CtxId) (x : Option Context) (j : SlotId) :
    (s.setContext i x).slot j = s.slot j := rfl
@[simp] theorem setContext_tiers (s : State) (i : CtxId) (x : Option Context) : (s.setContext i x).tiers = s.tiers := rfl
@[simp] theorem setContext_tierList (s : State) (i : CtxId) (x : Option Context) (j : RailId) :
    (s.setContext i x).tierList j = s.tierList j := rfl
@[simp] theorem setContext_feeds (s : State) (i : CtxId) (x : Option Context) : (s.setContext i x).feeds = s.feeds := rfl
@[simp] theorem setContext_feed (s : State) (i : CtxId) (x : Option Context) (j : FeedId) :
    (s.setContext i x).feed j = s.feed j := rfl
@[simp] theorem setContext_margin (s : State) (i : CtxId) (x : Option Context) : (s.setContext i x).margin = s.margin := rfl
@[simp] theorem setContext_accounts (s : State) (i : CtxId) (x : Option Context) : (s.setContext i x).accounts = s.accounts := rfl
@[simp] theorem setContext_account (s : State) (i : CtxId) (x : Option Context) (j : TenantId) :
    (s.setContext i x).account j = s.account j := rfl
@[simp] theorem setContext_chargedTotal (s : State) (i : CtxId) (x : Option Context) : (s.setContext i x).chargedTotal =
    s.chargedTotal := rfl
@[simp] theorem setContext_committedTotal (s : State) (i : CtxId) (x : Option Context) :
    (s.setContext i x).committedTotal = s.committedTotal := rfl
@[simp] theorem setContext_grantOrder (s : State) (i : CtxId) (x : Option Context) : (s.setContext i x).grantOrder =
    s.grantOrder := rfl
@[simp] theorem setContext_queue (s : State) (i : CtxId) (x : Option Context) : (s.setContext i x).queue = s.queue := rfl
@[simp] theorem setContext_passLimit (s : State) (i : CtxId) (x : Option Context) : (s.setContext i x).passLimit =
    s.passLimit := rfl
@[simp] theorem setContext_defaultWait (s : State) (i : CtxId) (x : Option Context) : (s.setContext i x).defaultWait =
    s.defaultWait := rfl
@[simp] theorem setContext_railConfig (s : State) (i : CtxId) (x : Option Context) : (s.setContext i x).railConfig =
    s.railConfig := rfl
@[simp] theorem setContext_config (s : State) (i : CtxId) (x : Option Context) (j : RailId) :
    (s.setContext i x).config j = s.config j := rfl
@[simp] theorem setContext_rails (s : State) (i : CtxId) (x : Option Context) : (s.setContext i x).rails = s.rails := rfl
@[simp] theorem setContext_rail (s : State) (i : CtxId) (x : Option Context) (j : RailId) :
    (s.setContext i x).rail j = s.rail j := rfl
@[simp] theorem setContext_faults (s : State) (i : CtxId) (x : Option Context) : (s.setContext i x).faults = s.faults := rfl
@[simp] theorem setContext_faultRecord (s : State) (i : CtxId) (x : Option Context) (j : RailId) :
    (s.setContext i x).faultRecord j = s.faultRecord j := rfl
@[simp] theorem setContext_ownership (s : State) (i : CtxId) (x : Option Context) : (s.setContext i x).ownership =
    s.ownership := rfl
@[simp] theorem setContext_owned (s : State) (i : CtxId) (x : Option Context) (j : RailId) :
    (s.setContext i x).owned j = s.owned j := rfl
@[simp] theorem setContext_tenants (s : State) (i : CtxId) (x : Option Context) : (s.setContext i x).tenants = s.tenants := rfl
@[simp] theorem setContext_tenant (s : State) (i : CtxId) (x : Option Context) (j : TenantId) :
    (s.setContext i x).tenant j = s.tenant j := rfl
@[simp] theorem setContext_lastGranted (s : State) (i : CtxId) (x : Option Context) : (s.setContext i x).lastGranted =
    s.lastGranted := rfl
@[simp] theorem setContext_service (s : State) (i : CtxId) (x : Option Context) : (s.setContext i x).service = s.service := rfl
@[simp] theorem setContext_controlRead (s : State) (i : CtxId) (x : Option Context) : (s.setContext i x).controlRead =
    s.controlRead := rfl
@[simp] theorem setContext_descriptorBase (s : State) (i : CtxId) (x : Option Context) :
    (s.setContext i x).descriptorBase = s.descriptorBase := rfl
@[simp] theorem setContext_lastAction (s : State) (i : CtxId) (x : Option Context) : (s.setContext i x).lastAction =
    s.lastAction := rfl
@[simp] theorem setContext_outcome (s : State) (i : CtxId) (x : Option Context) : (s.setContext i x).outcome = s.outcome := rfl
@[simp] theorem setContext_startError (s : State) (i : CtxId) (x : Option Context) : (s.setContext i x).startError =
    s.startError := rfl

/-! ### The happening in which a deadline is reached -/

/-- At the deadline, or past it, the happening is taken. -/
theorem atDeadline_of_le {s : State} {d : Nat} (u : State) (h : d ≤ s.now) : s.atDeadline d u = u := if_pos h

/-- Before the deadline nothing happens. -/
theorem atDeadline_of_lt {s : State} {d : Nat} (u : State) (h : s.now < d) : s.atDeadline d u = s := if_neg (Nat.not_le.mpr h)

/-- What a state keeps and the happening at the deadline keeps holds afterwards. -/
theorem atDeadline_keeps {P : State → Prop} {s u : State} {d : Nat} (hs : P s) (hu : P u) : P (s.atDeadline d u) := by
  unfold atDeadline; split <;> assumption

/-! ### Updates of one field -/

@[simp] theorem chosen_now (s : State) : (s.chosen).now = s.now := rfl
@[simp] theorem chosen_pending (s : State) : (s.chosen).pending = s.pending := rfl
@[simp] theorem chosen_slots (s : State) : (s.chosen).slots = s.slots := rfl
@[simp] theorem chosen_slot (s : State) (j : SlotId) : (s.chosen).slot j = s.slot j := rfl
@[simp] theorem chosen_tiers (s : State) : (s.chosen).tiers = s.tiers := rfl
@[simp] theorem chosen_tierList (s : State) (j : RailId) : (s.chosen).tierList j = s.tierList j := rfl
@[simp] theorem chosen_feeds (s : State) : (s.chosen).feeds = s.feeds := rfl
@[simp] theorem chosen_feed (s : State) (j : FeedId) : (s.chosen).feed j = s.feed j := rfl
@[simp] theorem chosen_margin (s : State) : (s.chosen).margin = s.margin := rfl
@[simp] theorem chosen_accounts (s : State) : (s.chosen).accounts = s.accounts := rfl
@[simp] theorem chosen_account (s : State) (j : TenantId) : (s.chosen).account j = s.account j := rfl
@[simp] theorem chosen_chargedTotal (s : State) : (s.chosen).chargedTotal = s.chargedTotal := rfl
@[simp] theorem chosen_committedTotal (s : State) : (s.chosen).committedTotal = s.committedTotal := rfl
@[simp] theorem chosen_grantOrder (s : State) : (s.chosen).grantOrder = s.grantOrder := rfl
@[simp] theorem chosen_queue (s : State) : (s.chosen).queue = s.queue := rfl
@[simp] theorem chosen_passLimit (s : State) : (s.chosen).passLimit = s.passLimit := rfl
@[simp] theorem chosen_defaultWait (s : State) : (s.chosen).defaultWait = s.defaultWait := rfl
@[simp] theorem chosen_railConfig (s : State) : (s.chosen).railConfig = s.railConfig := rfl
@[simp] theorem chosen_config (s : State) (j : RailId) : (s.chosen).config j = s.config j := rfl
@[simp] theorem chosen_rails (s : State) : (s.chosen).rails = s.rails := rfl
@[simp] theorem chosen_rail (s : State) (j : RailId) : (s.chosen).rail j = s.rail j := rfl
@[simp] theorem chosen_faults (s : State) : (s.chosen).faults = s.faults := rfl
@[simp] theorem chosen_faultRecord (s : State) (j : RailId) : (s.chosen).faultRecord j = s.faultRecord j := rfl
@[simp] theorem chosen_ownership (s : State) : (s.chosen).ownership = s.ownership := rfl
@[simp] theorem chosen_owned (s : State) (j : RailId) : (s.chosen).owned j = s.owned j := rfl
@[simp] theorem chosen_tenants (s : State) : (s.chosen).tenants = s.tenants := rfl
@[simp] theorem chosen_tenant (s : State) (j : TenantId) : (s.chosen).tenant j = s.tenant j := rfl
@[simp] theorem chosen_pool (s : State) : (s.chosen).pool = s.pool := rfl
@[simp] theorem chosen_context (s : State) (j : CtxId) : (s.chosen).context j = s.context j := rfl
@[simp] theorem chosen_lastGranted (s : State) : (s.chosen).lastGranted = s.lastGranted := rfl
@[simp] theorem chosen_service (s : State) : (s.chosen).service = s.service := rfl
@[simp] theorem chosen_controlRead (s : State) : (s.chosen).controlRead = s.controlRead := rfl
@[simp] theorem chosen_descriptorBase (s : State) : (s.chosen).descriptorBase = s.descriptorBase := rfl
@[simp] theorem chosen_lastAction (s : State) : (s.chosen).lastAction = s.lastAction := rfl
@[simp] theorem chosen_outcome (s : State) : (s.chosen).outcome = s.outcome := rfl
@[simp] theorem chosen_startError (s : State) : (s.chosen).startError = s.startError := rfl

@[simp] theorem chosen_choices (s : State) : s.chosen.choices = s.choices + 1 := rfl

end State

end Sys2Proof.Machine
end

