-- ==== Sys2Proof/Laws/Setup.lean ====
section
/-! SUPPORT. What the lease machinery never touches. `State.setup` is the part of the state that no shared operation on leases, rails'
live state, queue, contexts or outbound queues changes: one lemma per operation. -/

namespace Sys2Proof.Machine

/-- The part of the state that only configuration commands, feed events, ownership commands and CONTROL writes change. -/
structure Setup where
  now            : Nat
  pending        : List Instr
  tiers          : Vector (List Tier) 12
  feeds          : Vector Feed 3
  margin         : Nat
  quotas         : Vector (Nat × Nat) 4
  passLimit      : Nat
  defaultWait    : Nat
  railConfig     : Vector RailConfig 12
  ownership      : Vector Ownership 12
  lastGranted    : TenantId
  controlRead    : Option ControlRead
  descriptorBase : BitVec 64
  lastAction     : LastAction
  outcome        : ActionOutcome
  startError     : StartError

def State.setup (s : State) : Setup :=
  { now := s.now, pending := s.pending, tiers := s.tiers, feeds := s.feeds, margin := s.margin
    quotas := s.accounts.map fun a => (a.quota, a.maxClass)
    passLimit := s.passLimit, defaultWait := s.defaultWait, railConfig := s.railConfig, ownership := s.ownership
    lastGranted := s.lastGranted, controlRead := s.controlRead, descriptorBase := s.descriptorBase, lastAction := s.lastAction
    outcome := s.outcome, startError := s.startError }

/-! ### What equal setups say -/

theorem setup_now {s u : State} (h : u.setup = s.setup) : u.now = s.now := congrArg Setup.now h
theorem setup_pending {s u : State} (h : u.setup = s.setup) : u.pending = s.pending := congrArg Setup.pending h
theorem setup_tiers {s u : State} (h : u.setup = s.setup) : u.tiers = s.tiers := congrArg Setup.tiers h
theorem setup_feeds {s u : State} (h : u.setup = s.setup) : u.feeds = s.feeds := congrArg Setup.feeds h
theorem setup_margin {s u : State} (h : u.setup = s.setup) : u.margin = s.margin := congrArg Setup.margin h
theorem setup_passLimit {s u : State} (h : u.setup = s.setup) : u.passLimit = s.passLimit := congrArg Setup.passLimit h
theorem setup_defaultWait {s u : State} (h : u.setup = s.setup) : u.defaultWait = s.defaultWait := congrArg Setup.defaultWait h
theorem setup_railConfig {s u : State} (h : u.setup = s.setup) : u.railConfig = s.railConfig := congrArg Setup.railConfig h
theorem setup_ownership {s u : State} (h : u.setup = s.setup) : u.ownership = s.ownership := congrArg Setup.ownership h
theorem setup_descriptorBase {s u : State} (h : u.setup = s.setup) : u.descriptorBase = s.descriptorBase :=
  congrArg Setup.descriptorBase h
theorem setup_account {s u : State} (h : u.setup = s.setup) (t : TenantId) :
    (u.account t).quota = (s.account t).quota ∧ (u.account t).maxClass = (s.account t).maxClass := by
  have e := congrArg (fun x => vget x.quotas t) h
  simpa [State.setup, State.account] using e

/-! ### Writes -/

@[simp] theorem setup_setSlot (s : State) (i : SlotId) (x : Slot) : (s.setSlot i x).setup = s.setup := rfl
@[simp] theorem setup_setRail (s : State) (r : RailId) (x : Rail) : (s.setRail r x).setup = s.setup := rfl
@[simp] theorem setup_setFaultRecord (s : State) (r : RailId) (x : FaultRecord) : (s.setFaultRecord r x).setup = s.setup := rfl
@[simp] theorem setup_setTenant (s : State) (t : TenantId) (x : Tenant) : (s.setTenant t x).setup = s.setup := rfl
@[simp] theorem setup_setContext (s : State) (c : CtxId) (x : Option Context) : (s.setContext c x).setup = s.setup := rfl
@[simp] theorem setup_setLease (s : State) (i : SlotId) (l : Lease) : (s.setLease i l).setup = s.setup := rfl
@[simp] theorem setup_chosen (s : State) : s.chosen.setup = s.setup := rfl

/-- A write of a tenant's charged total alone. -/
theorem setup_setCharged (s : State) (t : TenantId) (n : Nat) :
    (s.setAccount t { s.account t with charged := n }).setup = s.setup := by
  have e : (vset s.accounts t { s.account t with charged := n }).map (fun a => (a.quota, a.maxClass)) =
      s.accounts.map fun a => (a.quota, a.maxClass) := by
    apply vget_ext
    intro i
    simp only [vget_map, vget_vset]
    split
    · next h => simp [h, State.account]
    · rfl
  simp only [State.setup, State.setAccount]
  rw [e]

/-! ### Rails -/

@[simp] theorem setup_cancelStable (s : State) (r : RailId) : (s.cancelStable r).setup = s.setup := rfl
@[simp] theorem setup_setCurrent (s : State) (r : RailId) (c : Nat) : (s.setCurrent r c).setup = s.setup := rfl
@[simp] theorem setup_setMembership (s : State) (r : RailId) (h : Option Handle) : (s.setMembership r h).setup = s.setup := rfl
@[simp] theorem setup_countFault (s : State) (r : RailId) (k : FaultKind) : (s.countFault r k).setup = s.setup := rfl
@[simp] theorem setup_enterDown (s : State) (r : RailId) (b : Bool) : (s.enterDown r b).setup = s.setup := rfl
@[simp] theorem setup_enterOn (s : State) (r : RailId) : (s.enterOn r).setup = s.setup := rfl

@[simp] theorem setup_enterRising (s : State) (r : RailId) (v c : Nat) : (s.enterRising r v c).setup = s.setup := by
  unfold State.enterRising; split <;> simp

@[simp] theorem setup_enterSlewing (s : State) (r : RailId) (v : Nat) : (s.enterSlewing r v).setup = s.setup := by
  unfold State.enterSlewing; split <;> simp

@[simp] theorem setup_enterFalling (s : State) (r : RailId) : (s.enterFalling r).setup = s.setup := by
  unfold State.enterFalling; split <;> simp

@[simp] theorem setup_setMemberships (s : State) (ms : List Member) (h : Option Handle) :
    (s.setMemberships ms h).setup = s.setup := by
  unfold State.setMemberships
  induction ms generalizing s with
  | nil => rfl
  | cons m ms ih => simp [ih]

@[simp] theorem setup_fallAll (s : State) (ms : List Member) : (s.fallAll ms).setup = s.setup := by
  unfold State.fallAll
  induction ms generalizing s with
  | nil => rfl
  | cons m ms ih => simp [ih]

/-! ### Totals, grant order list, queue -/

@[simp] theorem setup_addCharged (s : State) (t : TenantId) (c : Nat) : (s.addCharged t c).setup = s.setup :=
  setup_setCharged s t _
@[simp] theorem setup_subCharged (s : State) (t : TenantId) (c : Nat) : (s.subCharged t c).setup = s.setup :=
  setup_setCharged s t _
@[simp] theorem setup_charge (s : State) (t : TenantId) (c : Nat) : (s.charge t c).setup = s.setup := by
  simp only [State.charge, setup_addCharged]; rfl
@[simp] theorem setup_creditAll (s : State) (t : TenantId) (c : Nat) : (s.creditAll t c).setup = s.setup := by
  simp only [State.creditAll, setup_subCharged]; rfl
@[simp] theorem setup_creditHeld (s : State) (t : TenantId) (c : Nat) : (s.creditHeld t c).setup = s.setup := by
  simp only [State.creditHeld, setup_subCharged]; rfl
@[simp] theorem setup_joinList (s : State) (h : Handle) : (s.joinList h).setup = s.setup := rfl
@[simp] theorem setup_leaveList (s : State) (h : Handle) : (s.leaveList h).setup = s.setup := rfl
@[simp] theorem setup_removeEntry (s : State) (h : Handle) : (s.removeEntry h).setup = s.setup := rfl
@[simp] theorem setup_insertRestore (s : State) (h : Handle) (c : Nat) : (s.insertRestore h c).setup = s.setup := rfl
@[simp] theorem setup_insertClaim (s : State) (h : Handle) (d : Nat) : (s.insertClaim h d).setup = s.setup := rfl
@[simp] theorem setup_passSkipped (s : State) (hs : List Handle) : (s.passSkipped hs).setup = s.setup := rfl
@[simp] theorem setup_setCommitted (s : State) (n : Nat) : ({ s with committedTotal := n } : State).setup = s.setup := rfl
@[simp] theorem setup_setQueue (s : State) (q : List QueueEntry) : ({ s with queue := q } : State).setup = s.setup := rfl
@[simp] theorem setup_setService (s : State) (x : ServiceState) : ({ s with service := x } : State).setup = s.setup := rfl

/-! ### Happenings -/

@[simp] theorem begin_st (s : State) : s.begin.st = s := rfl

namespace Happening

@[simp] theorem mark_st (h : Happening) (t : TenantId) (x : Subject) (r : Reason) : (h.mark t x r).st = h.st := rfl
@[simp] theorem risen_st (h : Happening) : h.risen.st = h.st := rfl
@[simp] theorem checked_st (h : Happening) : h.checked.st = h.st := rfl
@[simp] theorem loosen_st (h : Happening) (i : SlotId) : (h.loosen i).st = h.st := rfl
@[simp] theorem map_st (h : Happening) (f : State → State) : (h.map f).st = f h.st := rfl
@[simp] theorem putLease_st (h : Happening) (i : SlotId) (l : Lease) : (h.putLease i l).st = h.st.setLease i l := rfl
@[simp] theorem changeLease_st (h : Happening) (i : SlotId) (l : Lease) (r : Reason) :
    (h.changeLease i l r).st = h.st.setLease i { l with count := l.count + 1 } := rfl

@[simp] theorem raiseMember_setup (h : Happening) (l : Lease) (k : Nat) : (h.raiseMember l k).st.setup = h.st.setup := by
  unfold raiseMember; split <;> simp

@[simp] theorem restart_setup (h : Happening) (i : SlotId) (l : Lease) : (h.restart i l).st.setup = h.st.setup := by
  simp [restart]

@[simp] theorem stepOver_setup (h : Happening) (i : SlotId) (l : Lease) (k : Nat) : (h.stepOver i l k).st.setup = h.st.setup := by
  unfold stepOver; split <;> simp

@[simp] theorem giveBack_setup (h : Happening) (i : SlotId) (l : Lease) : (h.giveBack i l).st.setup = h.st.setup := by
  unfold giveBack; split <;> simp

@[simp] theorem endLease_setup (h : Happening) (i : SlotId) (l : Lease) (r : EndReason) :
    (h.endLease i l r).st.setup = h.st.setup := by
  simp [endLease]

@[simp] theorem takeTurn_setup (h : Happening) (i : SlotId) (l : Lease) (stop : StopRecord) :
    (h.takeTurn i l stop).st.setup = h.st.setup := by
  unfold takeTurn
  simp only
  split
  · split <;> simp
  · simp

@[simp] theorem enterRetry_setup (h : Happening) (i : SlotId) (l : Lease) (stop : StopRecord) :
    (h.enterRetry i l stop).st.setup = h.st.setup := by
  simp [enterRetry]

@[simp] theorem enterSuspended_setup (h : Happening) (i : SlotId) (l : Lease) :
    (h.enterSuspended i l).st.setup = h.st.setup := by
  simp [enterSuspended]

@[simp] theorem settleStop_setup (h : Happening) (i : SlotId) (l : Lease) (stop : StopRecord) :
    (h.settleStop i l stop).st.setup = h.st.setup := by
  unfold settleStop
  split
  · simp
  · simp only
    split
    · split <;> simp
    · simp
  · simp

@[simp] theorem beginStop_setup (h : Happening) (i : SlotId) (l : Lease) (stop : StopRecord) :
    (h.beginStop i l stop).st.setup = h.st.setup := by
  unfold beginStop
  split
  · simp
  · split <;> simp

@[simp] theorem creditFall_setup (h : Happening) (t : TenantId) (a b : Nat) : (h.creditFall t a b).st.setup = h.st.setup := by
  unfold creditFall; split <;> simp

@[simp] theorem stopLease_setup (h : Happening) (i : SlotId) (l : Lease) (c : StopCause) (f : Option (RailId × FaultKind)) :
    (h.stopLease i l c f).st.setup = h.st.setup := by
  unfold stopLease
  simp only
  split <;> simp

@[simp] theorem unsequence_setup (h : Happening) (i : SlotId) (l : Lease) (stop : StopRecord) :
    (h.unsequence i l stop).st.setup = h.st.setup := by
  simp [unsequence]

@[simp] theorem stopCause_setup (h : Happening) (i : SlotId) (l : Lease) (c : StopCause) :
    (h.stopCause i l c).st.setup = h.st.setup := by
  unfold stopCause
  split
  all_goals first | simp | (split <;> simp)

@[simp] theorem shed_setup (h : Happening) (v : Handle) : (h.shed v).st.setup = h.st.setup := by
  unfold shed
  split
  · split
    · split <;> simp
    all_goals simp
  · simp

@[simp] theorem shedWhile_setup (n : Nat) (h : Happening) : (shedWhile n h).st.setup = h.st.setup := by
  induction n generalizing h with
  | zero => rfl
  | succ n ih =>
    unfold shedWhile
    split
    · split
      · simp [ih]
      · rfl
    · rfl

@[simp] theorem shedPass_setup (h : Happening) : h.shedPass.st.setup = h.st.setup := by simp [shedPass]

@[simp] theorem lapsePassed_setup (h : Happening) (i : SlotId) : (h.lapsePassed i).st.setup = h.st.setup := by
  unfold lapsePassed
  split
  · split <;> simp
  · rfl

@[simp] theorem lapseAndShed_setup (h : Happening) (i : SlotId) : (h.lapseAndShed i).st.setup = h.st.setup := by
  unfold lapseAndShed
  simp only
  split <;> simp

@[simp] theorem completeStop_setup (h : Happening) (i : SlotId) (l : Lease) (stop : StopRecord) :
    (h.completeStop i l stop).st.setup = h.st.setup := by
  unfold completeStop
  simp only
  split
  · split <;> simp
  all_goals simp

@[simp] theorem railDown_setup (h : Happening) (r : RailId) : (h.railDown r).st.setup = h.st.setup := by
  unfold railDown
  split
  · split
    · split
      · simp
      · split
        · split <;> simp
        · rfl
    · rfl
  · rfl

@[simp] theorem faultLease_setup (h : Happening) (r : RailId) (k : FaultKind) : (h.faultLease r k).st.setup = h.st.setup := by
  unfold faultLease
  split
  · split <;> simp
  · rfl

@[simp] theorem fault_setup (h : Happening) (r : RailId) (k : FaultKind) : (h.fault r k).st.setup = h.st.setup := by
  simp [fault]

end Happening

/-! ### The end of a happening -/

@[simp] theorem setup_freeContext (s : State) (c : CtxId) : (s.freeContext c).setup = s.setup := by
  unfold State.freeContext; split <;> simp

@[simp] theorem setup_setStage (s : State) (c : CtxId) (x : Stage) : (s.setStage c x).setup = s.setup := by
  unfold State.setStage; split <;> simp

@[simp] theorem setup_setUnderWay (s : State) (t : TenantId) (b : Bool) : (s.setUnderWay t b).setup = s.setup := rfl

@[simp] theorem setup_postCompletion (s : State) (t : TenantId) (c : Completion) : (s.postCompletion t c).setup = s.setup := by
  unfold State.postCompletion; split <;> simp

@[simp] theorem setup_postMarker (s : State) (t : TenantId) (x : Subject) (r : Reason) :
    (s.postMarker t x r).setup = s.setup := by
  unfold State.postMarker; split <;> simp

@[simp] theorem setup_freeEnded (s : State) (i : SlotId) : (s.freeEnded i).setup = s.setup := by
  unfold State.freeEnded
  split
  · split <;> simp
  · rfl

namespace Happening

@[simp] theorem answer_setup (h : Happening) (c : CtxId) (a : Status) (d : Detail) (x : Option Handle) (n : Nat) :
    (h.answer c a d x n).st.setup = h.st.setup := by
  unfold answer; split <;> simp

@[simp] theorem reply_setup (h : Happening) (c : CtxId) (a : Status) : (h.reply c a).st.setup = h.st.setup := by simp [reply]

@[simp] theorem grantEntry_setup (h : Happening) (e : QueueEntry) (l : Lease) (k : List Handle) :
    (h.grantEntry e l k).st.setup = h.st.setup := by
  simp [grantEntry]

@[simp] theorem walk_setup (h : Happening) (k : List Handle) (q : List QueueEntry) : (h.walk k q).st.setup = h.st.setup := by
  induction q generalizing h k with
  | nil => rfl
  | cons e q ih =>
    unfold walk
    split
    · split
      · simp only
        split <;> simp [ih]
      · split <;> simp [ih]
    · simp [ih]

@[simp] theorem scan_setup (h : Happening) : h.scan.st.setup = h.st.setup := by simp [scan]

@[simp] theorem drainEnd_setup (h : Happening) : h.drainEnd.st.setup = h.st.setup := by
  unfold drainEnd
  split
  · split
    · rfl
    · simp only
      split
      · split <;> simp
      · simp
  · rfl

@[simp] theorem teardownEnd_setup (h : Happening) (n : TenantId) : (h.teardownEnd n).st.setup = h.st.setup := by
  unfold teardownEnd
  split
  · simp only
    split <;> simp
  · rfl

@[simp] theorem endings_setup (h : Happening) : h.endings.st.setup = h.st.setup := by
  have loop : ∀ (ns : List TenantId) (g : Happening), (ns.foldl teardownEnd g).st.setup = g.st.setup := by
    intro ns
    induction ns with
    | nil => intro g; rfl
    | cons n ns ih => intro g; simp [ih]
  simp [endings, loop]

@[simp] theorem flush_setup (h : Happening) : h.flush.setup = h.st.setup := by
  have posts : ∀ (l : List (TenantId × Completion)) (s : State),
      (l.foldl (fun s a => s.postCompletion a.1 a.2) s).setup = s.setup := by
    intro l
    induction l with
    | nil => intro s; rfl
    | cons a l ih => intro s; simp [ih]
  have marks : ∀ (l : List (TenantId × Subject × Reason)) (s : State),
      (l.foldl (fun s m => s.postMarker m.1 m.2.1 m.2.2) s).setup = s.setup := by
    intro l
    induction l with
    | nil => intro s; rfl
    | cons a l ih => intro s; simp [ih]
  have frees : ∀ (l : List SlotId) (s : State), (l.foldl State.freeEnded s).setup = s.setup := by
    intro l
    induction l with
    | nil => intro s; rfl
    | cons a l ih => intro s; simp [ih]
  simp [flush, posts, marks, frees]

/-- The end of a happening changes no setup. -/
@[simp] theorem settle_setup (h : Happening) : h.settle.setup = h.st.setup := by
  unfold settle
  simp only [flush_setup]
  split <;> split <;> simp

@[simp] theorem stopSlot_setup (cause : StopCause) (p : Lease → Bool) (h : Happening) (i : SlotId) :
    (stopSlot cause p h i).st.setup = h.st.setup := by
  unfold stopSlot
  split
  · split <;> simp
  · rfl

@[simp] theorem stopAll_setup (h : Happening) (cause : StopCause) (p : Lease → Bool) :
    (h.stopAll cause p).st.setup = h.st.setup := by
  have loop : ∀ (is : List SlotId) (g : Happening), (is.foldl (stopSlot cause p) g).st.setup = g.st.setup := by
    intro is
    induction is with
    | nil => intro g; rfl
    | cons i is ih => intro g; simp [ih]
  simp [stopAll, loop]

end Happening

/-- A command refused changes no setup. -/
@[simp] theorem setup_refuse (s : State) (c : CtxId) (a : Status) (d : Detail) : (s.refuse c a d).setup = s.setup := by
  simp [State.refuse]

@[simp] theorem setup_beginReport (s : State) (c : CtxId) (b : Nat) (r : List Byte) : (s.beginReport c b r).setup = s.setup := by
  unfold State.beginReport; split <;> simp

end Sys2Proof.Machine
end

