-- ==== Sys2Proof/Laws/Held.lean ====
section
/-! SUPPORT. Two more parts of the state that the shared operations leave alone: generations with outbound queues, and fault counts. -/

namespace Sys2Proof.Machine

/-! ### Generations and outbound queues -/

/-- The slots' generations and the tenants' outbound queues: no operation of a happening changes them before its end. -/
structure Held where
  gens  : Vector (BitVec 12) 16
  boxes : Vector (List OutEntry) 4

def State.held (s : State) : Held := { gens := s.slots.map Slot.gen, boxes := s.tenants.map Tenant.outbound }

theorem held_gen {s u : State} (h : u.held = s.held) (i : SlotId) : (u.slot i).gen = (s.slot i).gen := by
  simpa [State.held, State.slot] using congrArg (fun x => vget x.gens i) h

theorem held_box {s u : State} (h : u.held = s.held) (t : TenantId) : (u.tenant t).outbound = (s.tenant t).outbound := by
  simpa [State.held, State.tenant] using congrArg (fun x => vget x.boxes t) h

@[simp] theorem held_setRail (s : State) (r : RailId) (x : Rail) : (s.setRail r x).held = s.held := rfl
@[simp] theorem held_setFaultRecord (s : State) (r : RailId) (x : FaultRecord) : (s.setFaultRecord r x).held = s.held := rfl
@[simp] theorem held_setAccount (s : State) (t : TenantId) (x : Account) : (s.setAccount t x).held = s.held := rfl
@[simp] theorem held_setContext (s : State) (c : CtxId) (x : Option Context) : (s.setContext c x).held = s.held := rfl
@[simp] theorem held_chosen (s : State) : s.chosen.held = s.held := rfl

/-- A write of a tenant that keeps its outbound queue. -/
theorem held_setTenant (s : State) (t : TenantId) (x : Tenant) (h : x.outbound = (s.tenant t).outbound) :
    (s.setTenant t x).held = s.held := by
  have e : (vset s.tenants t x).map Tenant.outbound = s.tenants.map Tenant.outbound := by
    apply vget_ext
    intro j
    simp only [vget_map, vget_vset]
    split
    · next k => rw [h, k]; rfl
    · rfl
  simp only [State.held, State.setTenant]
  rw [e]

/-- A write of a slot that keeps its generation. -/
theorem held_setSlot (s : State) (i : SlotId) (x : Slot) (h : x.gen = (s.slot i).gen) : (s.setSlot i x).held = s.held := by
  have e : (vset s.slots i x).map Slot.gen = s.slots.map Slot.gen := by
    apply vget_ext
    intro j
    simp only [vget_map, vget_vset]
    split
    · next k => rw [h, k]; rfl
    · rfl
  simp only [State.held, State.setSlot]
  rw [e]

@[simp] theorem held_setLease (s : State) (i : SlotId) (l : Lease) : (s.setLease i l).held = s.held :=
  held_setSlot s i _ rfl

@[simp] theorem held_setUnderWay (s : State) (t : TenantId) (b : Bool) : (s.setUnderWay t b).held = s.held :=
  held_setTenant s t _ rfl

@[simp] theorem held_freeContext (s : State) (c : CtxId) : (s.freeContext c).held = s.held := by
  unfold State.freeContext
  split
  · rw [held_setTenant] <;> rfl
  · rfl

/-! ### Rails -/

@[simp] theorem held_cancelStable (s : State) (r : RailId) : (s.cancelStable r).held = s.held := rfl
@[simp] theorem held_setCurrent (s : State) (r : RailId) (c : Nat) : (s.setCurrent r c).held = s.held := rfl
@[simp] theorem held_setMembership (s : State) (r : RailId) (h : Option Handle) : (s.setMembership r h).held = s.held := rfl
@[simp] theorem held_countFault (s : State) (r : RailId) (k : FaultKind) : (s.countFault r k).held = s.held := rfl
@[simp] theorem held_enterDown (s : State) (r : RailId) (b : Bool) : (s.enterDown r b).held = s.held := rfl
@[simp] theorem held_enterOn (s : State) (r : RailId) : (s.enterOn r).held = s.held := rfl

@[simp] theorem held_enterRising (s : State) (r : RailId) (v c : Nat) : (s.enterRising r v c).held = s.held := by
  unfold State.enterRising; split <;> simp

@[simp] theorem held_enterSlewing (s : State) (r : RailId) (v : Nat) : (s.enterSlewing r v).held = s.held := by
  unfold State.enterSlewing; split <;> simp

@[simp] theorem held_enterFalling (s : State) (r : RailId) : (s.enterFalling r).held = s.held := by
  unfold State.enterFalling; split <;> simp

@[simp] theorem held_setMemberships (s : State) (ms : List Member) (h : Option Handle) :
    (s.setMemberships ms h).held = s.held := by
  unfold State.setMemberships
  induction ms generalizing s with
  | nil => rfl
  | cons m ms ih => simp [ih]

@[simp] theorem held_fallAll (s : State) (ms : List Member) : (s.fallAll ms).held = s.held := by
  unfold State.fallAll
  induction ms generalizing s with
  | nil => rfl
  | cons m ms ih => simp [ih]

/-! ### Totals, grant order list, queue -/

@[simp] theorem held_addCharged (s : State) (t : TenantId) (c : Nat) : (s.addCharged t c).held = s.held :=
  rfl
@[simp] theorem held_subCharged (s : State) (t : TenantId) (c : Nat) : (s.subCharged t c).held = s.held :=
  rfl
@[simp] theorem held_charge (s : State) (t : TenantId) (c : Nat) : (s.charge t c).held = s.held := by
  simp only [State.charge, held_addCharged]; rfl
@[simp] theorem held_creditAll (s : State) (t : TenantId) (c : Nat) : (s.creditAll t c).held = s.held := by
  simp only [State.creditAll, held_subCharged]; rfl
@[simp] theorem held_creditHeld (s : State) (t : TenantId) (c : Nat) : (s.creditHeld t c).held = s.held := by
  simp only [State.creditHeld, held_subCharged]; rfl
@[simp] theorem held_joinList (s : State) (h : Handle) : (s.joinList h).held = s.held := rfl
@[simp] theorem held_leaveList (s : State) (h : Handle) : (s.leaveList h).held = s.held := rfl
@[simp] theorem held_removeEntry (s : State) (h : Handle) : (s.removeEntry h).held = s.held := rfl
@[simp] theorem held_insertRestore (s : State) (h : Handle) (c : Nat) : (s.insertRestore h c).held = s.held := rfl
@[simp] theorem held_insertClaim (s : State) (h : Handle) (d : Nat) : (s.insertClaim h d).held = s.held := rfl
@[simp] theorem held_passSkipped (s : State) (hs : List Handle) : (s.passSkipped hs).held = s.held := rfl
@[simp] theorem held_setCommitted (s : State) (n : Nat) : ({ s with committedTotal := n } : State).held = s.held := rfl
@[simp] theorem held_setQueue (s : State) (q : List QueueEntry) : ({ s with queue := q } : State).held = s.held := rfl
@[simp] theorem held_setService (s : State) (x : ServiceState) : ({ s with service := x } : State).held = s.held := rfl

/-! ### Happenings -/

namespace Happening

@[simp] theorem raiseMember_held (h : Happening) (l : Lease) (k : Nat) : (h.raiseMember l k).st.held = h.st.held := by
  unfold raiseMember; split <;> simp

@[simp] theorem restart_held (h : Happening) (i : SlotId) (l : Lease) : (h.restart i l).st.held = h.st.held := by
  simp [restart]

@[simp] theorem stepOver_held (h : Happening) (i : SlotId) (l : Lease) (k : Nat) : (h.stepOver i l k).st.held = h.st.held := by
  unfold stepOver; split <;> simp

@[simp] theorem giveBack_held (h : Happening) (i : SlotId) (l : Lease) : (h.giveBack i l).st.held = h.st.held := by
  unfold giveBack; split <;> simp

@[simp] theorem endLease_held (h : Happening) (i : SlotId) (l : Lease) (r : EndReason) :
    (h.endLease i l r).st.held = h.st.held := by
  simp [endLease]

@[simp] theorem takeTurn_held (h : Happening) (i : SlotId) (l : Lease) (stop : StopRecord) :
    (h.takeTurn i l stop).st.held = h.st.held := by
  unfold takeTurn
  simp only
  split
  · split <;> simp
  · simp

@[simp] theorem enterRetry_held (h : Happening) (i : SlotId) (l : Lease) (stop : StopRecord) :
    (h.enterRetry i l stop).st.held = h.st.held := by
  simp [enterRetry]

@[simp] theorem enterSuspended_held (h : Happening) (i : SlotId) (l : Lease) :
    (h.enterSuspended i l).st.held = h.st.held := by
  simp [enterSuspended]

@[simp] theorem settleStop_held (h : Happening) (i : SlotId) (l : Lease) (stop : StopRecord) :
    (h.settleStop i l stop).st.held = h.st.held := by
  unfold settleStop
  split
  · simp
  · simp only
    split
    · split <;> simp
    · simp
  · simp

@[simp] theorem beginStop_held (h : Happening) (i : SlotId) (l : Lease) (stop : StopRecord) :
    (h.beginStop i l stop).st.held = h.st.held := by
  unfold beginStop
  split
  · simp
  · split <;> simp

@[simp] theorem creditFall_held (h : Happening) (t : TenantId) (a b : Nat) : (h.creditFall t a b).st.held = h.st.held := by
  unfold creditFall; split <;> simp

@[simp] theorem stopLease_held (h : Happening) (i : SlotId) (l : Lease) (c : StopCause) (f : Option (RailId × FaultKind)) :
    (h.stopLease i l c f).st.held = h.st.held := by
  unfold stopLease
  simp only
  split <;> simp

@[simp] theorem unsequence_held (h : Happening) (i : SlotId) (l : Lease) (stop : StopRecord) :
    (h.unsequence i l stop).st.held = h.st.held := by
  simp [unsequence]

@[simp] theorem stopCause_held (h : Happening) (i : SlotId) (l : Lease) (c : StopCause) :
    (h.stopCause i l c).st.held = h.st.held := by
  unfold stopCause
  split
  all_goals first | simp | (split <;> simp)

@[simp] theorem shed_held (h : Happening) (v : Handle) : (h.shed v).st.held = h.st.held := by
  unfold shed
  split
  · split
    · split <;> simp
    all_goals simp
  · simp

@[simp] theorem shedWhile_held (n : Nat) (h : Happening) : (shedWhile n h).st.held = h.st.held := by
  induction n generalizing h with
  | zero => rfl
  | succ n ih =>
    unfold shedWhile
    split
    · split
      · simp [ih]
      · rfl
    · rfl

@[simp] theorem shedPass_held (h : Happening) : h.shedPass.st.held = h.st.held := by simp [shedPass]

@[simp] theorem lapsePassed_held (h : Happening) (i : SlotId) : (h.lapsePassed i).st.held = h.st.held := by
  unfold lapsePassed
  split
  · split <;> simp
  · rfl

@[simp] theorem lapseAndShed_held (h : Happening) (i : SlotId) : (h.lapseAndShed i).st.held = h.st.held := by
  unfold lapseAndShed
  simp only
  split <;> simp

@[simp] theorem completeStop_held (h : Happening) (i : SlotId) (l : Lease) (stop : StopRecord) :
    (h.completeStop i l stop).st.held = h.st.held := by
  unfold completeStop
  simp only
  split
  · split <;> simp
  all_goals simp

@[simp] theorem railDown_held (h : Happening) (r : RailId) : (h.railDown r).st.held = h.st.held := by
  unfold railDown
  split
  · split
    · split
      · simp
      · split
        · split <;> simp
        · rfl
    · rfl
  · rfl

@[simp] theorem faultLease_held (h : Happening) (r : RailId) (k : FaultKind) : (h.faultLease r k).st.held = h.st.held := by
  unfold faultLease
  split
  · split <;> simp
  · rfl

@[simp] theorem fault_held (h : Happening) (r : RailId) (k : FaultKind) : (h.fault r k).st.held = h.st.held := by
  simp [fault]

end Happening

/-! ### The end of a happening -/

@[simp] theorem held_setStage (s : State) (c : CtxId) (x : Stage) : (s.setStage c x).held = s.held := by
  unfold State.setStage; split <;> simp

namespace Happening

@[simp] theorem answer_held (h : Happening) (c : CtxId) (a : Status) (d : Detail) (x : Option Handle) (n : Nat) :
    (h.answer c a d x n).st.held = h.st.held := by
  unfold answer; split <;> simp

@[simp] theorem reply_held (h : Happening) (c : CtxId) (a : Status) : (h.reply c a).st.held = h.st.held := by simp [reply]

@[simp] theorem grantEntry_held (h : Happening) (e : QueueEntry) (l : Lease) (k : List Handle) :
    (h.grantEntry e l k).st.held = h.st.held := by
  simp [grantEntry]

@[simp] theorem walk_held (h : Happening) (k : List Handle) (q : List QueueEntry) : (h.walk k q).st.held = h.st.held := by
  induction q generalizing h k with
  | nil => rfl
  | cons e q ih =>
    unfold walk
    split
    · split
      · simp only
        split <;> simp [ih]
      · split <;> simp [ih]
    · simp [ih]

@[simp] theorem scan_held (h : Happening) : h.scan.st.held = h.st.held := by simp [scan]

@[simp] theorem drainEnd_held (h : Happening) : h.drainEnd.st.held = h.st.held := by
  unfold drainEnd
  split
  · split
    · rfl
    · simp only
      split
      · split <;> simp
      · simp
  · rfl

@[simp] theorem teardownEnd_held (h : Happening) (n : TenantId) : (h.teardownEnd n).st.held = h.st.held := by
  unfold teardownEnd
  split
  · simp only
    split <;> simp [held_setTenant]
  · rfl

@[simp] theorem endings_held (h : Happening) : h.endings.st.held = h.st.held := by
  have loop : ∀ (ns : List TenantId) (g : Happening), (ns.foldl teardownEnd g).st.held = g.st.held := by
    intro ns
    induction ns with
    | nil => intro g; rfl
    | cons n ns ih => intro g; simp [ih]
  simp [endings, loop]

@[simp] theorem stopSlot_held (cause : StopCause) (p : Lease → Bool) (h : Happening) (i : SlotId) :
    (stopSlot cause p h i).st.held = h.st.held := by
  unfold stopSlot
  split
  · split <;> simp
  · rfl

@[simp] theorem stopAll_held (h : Happening) (cause : StopCause) (p : Lease → Bool) :
    (h.stopAll cause p).st.held = h.st.held := by
  have loop : ∀ (is : List SlotId) (g : Happening), (is.foldl (stopSlot cause p) g).st.held = g.st.held := by
    intro is
    induction is with
    | nil => intro g; rfl
    | cons i is ih => intro g; simp [ih]
  simp [stopAll, loop]

end Happening

/-! ### Fault counts -/

/-- The rails' fault counts: only the count of a fault, the stable deadline and CLEAR_LOCKOUT change them (R121). -/
def State.counts (s : State) : Vector Nat 12 := s.faults.map FaultRecord.count

theorem counts_count {s u : State} (h : u.counts = s.counts) (r : RailId) : (u.faultRecord r).count = (s.faultRecord r).count := by
  simpa [State.counts, State.faultRecord] using congrArg (fun x => vget x r) h

@[simp] theorem counts_setSlot (s : State) (i : SlotId) (x : Slot) : (s.setSlot i x).counts = s.counts := rfl
@[simp] theorem counts_setLease (s : State) (i : SlotId) (l : Lease) : (s.setLease i l).counts = s.counts := rfl
@[simp] theorem counts_setRail (s : State) (r : RailId) (x : Rail) : (s.setRail r x).counts = s.counts := rfl
@[simp] theorem counts_setAccount (s : State) (t : TenantId) (x : Account) : (s.setAccount t x).counts = s.counts := rfl
@[simp] theorem counts_addCharged (s : State) (t : TenantId) (c : Nat) : (s.addCharged t c).counts = s.counts := rfl
@[simp] theorem counts_setTenant (s : State) (t : TenantId) (x : Tenant) : (s.setTenant t x).counts = s.counts := rfl
@[simp] theorem counts_setContext (s : State) (c : CtxId) (x : Option Context) : (s.setContext c x).counts = s.counts := rfl
@[simp] theorem counts_chosen (s : State) : s.chosen.counts = s.counts := rfl

/-- A write of a fault record that keeps its count. -/
theorem counts_setFaultRecord (s : State) (r : RailId) (x : FaultRecord) (h : x.count = (s.faultRecord r).count) :
    (s.setFaultRecord r x).counts = s.counts := by
  apply vget_ext
  intro j
  simp only [State.counts, State.setFaultRecord, vget_map, vget_vset]
  split
  · next k => rw [h, k]; rfl
  · rfl

/-! ### Rails -/

@[simp] theorem counts_cancelStable (s : State) (r : RailId) : (s.cancelStable r).counts = s.counts :=
  counts_setFaultRecord s r _ rfl
@[simp] theorem counts_setCurrent (s : State) (r : RailId) (c : Nat) : (s.setCurrent r c).counts = s.counts := rfl
@[simp] theorem counts_setMembership (s : State) (r : RailId) (h : Option Handle) : (s.setMembership r h).counts = s.counts := rfl
@[simp] theorem counts_enterDown (s : State) (r : RailId) (b : Bool) : (s.enterDown r b).counts = s.counts := rfl
@[simp] theorem counts_enterOn (s : State) (r : RailId) : (s.enterOn r).counts = s.counts := by
  unfold State.enterOn
  rw [counts_setFaultRecord] <;> rfl

@[simp] theorem counts_enterRising (s : State) (r : RailId) (v c : Nat) : (s.enterRising r v c).counts = s.counts := by
  unfold State.enterRising; split <;> simp

@[simp] theorem counts_enterSlewing (s : State) (r : RailId) (v : Nat) : (s.enterSlewing r v).counts = s.counts := by
  unfold State.enterSlewing; split <;> simp

@[simp] theorem counts_enterFalling (s : State) (r : RailId) : (s.enterFalling r).counts = s.counts := by
  unfold State.enterFalling; split <;> simp

@[simp] theorem counts_setMemberships (s : State) (ms : List Member) (h : Option Handle) :
    (s.setMemberships ms h).counts = s.counts := by
  unfold State.setMemberships
  induction ms generalizing s with
  | nil => rfl
  | cons m ms ih => simp [ih]

@[simp] theorem counts_fallAll (s : State) (ms : List Member) : (s.fallAll ms).counts = s.counts := by
  unfold State.fallAll
  induction ms generalizing s with
  | nil => rfl
  | cons m ms ih => simp [ih]

/-! ### Totals, grant order list, queue -/

@[simp] theorem counts_subCharged (s : State) (t : TenantId) (c : Nat) : (s.subCharged t c).counts = s.counts :=
  rfl
@[simp] theorem counts_charge (s : State) (t : TenantId) (c : Nat) : (s.charge t c).counts = s.counts := by
  simp only [State.charge, counts_addCharged]; rfl
@[simp] theorem counts_creditAll (s : State) (t : TenantId) (c : Nat) : (s.creditAll t c).counts = s.counts := by
  simp only [State.creditAll, counts_subCharged]; rfl
@[simp] theorem counts_creditHeld (s : State) (t : TenantId) (c : Nat) : (s.creditHeld t c).counts = s.counts := by
  simp only [State.creditHeld, counts_subCharged]; rfl
@[simp] theorem counts_joinList (s : State) (h : Handle) : (s.joinList h).counts = s.counts := rfl
@[simp] theorem counts_leaveList (s : State) (h : Handle) : (s.leaveList h).counts = s.counts := rfl
@[simp] theorem counts_removeEntry (s : State) (h : Handle) : (s.removeEntry h).counts = s.counts := rfl
@[simp] theorem counts_insertRestore (s : State) (h : Handle) (c : Nat) : (s.insertRestore h c).counts = s.counts := rfl
@[simp] theorem counts_insertClaim (s : State) (h : Handle) (d : Nat) : (s.insertClaim h d).counts = s.counts := rfl
@[simp] theorem counts_passSkipped (s : State) (hs : List Handle) : (s.passSkipped hs).counts = s.counts := rfl
@[simp] theorem counts_setCommitted (s : State) (n : Nat) : ({ s with committedTotal := n } : State).counts = s.counts := rfl
@[simp] theorem counts_setQueue (s : State) (q : List QueueEntry) : ({ s with queue := q } : State).counts = s.counts := rfl
@[simp] theorem counts_setService (s : State) (x : ServiceState) : ({ s with service := x } : State).counts = s.counts := rfl

/-! ### Happenings -/

namespace Happening

@[simp] theorem raiseMember_counts (h : Happening) (l : Lease) (k : Nat) : (h.raiseMember l k).st.counts = h.st.counts := by
  unfold raiseMember; split <;> simp

@[simp] theorem restart_counts (h : Happening) (i : SlotId) (l : Lease) : (h.restart i l).st.counts = h.st.counts := by
  simp [restart]

@[simp] theorem stepOver_counts (h : Happening) (i : SlotId) (l : Lease) (k : Nat) : (h.stepOver i l k).st.counts =
    h.st.counts := by
  unfold stepOver; split <;> simp

@[simp] theorem giveBack_counts (h : Happening) (i : SlotId) (l : Lease) : (h.giveBack i l).st.counts = h.st.counts := by
  unfold giveBack; split <;> simp

@[simp] theorem endLease_counts (h : Happening) (i : SlotId) (l : Lease) (r : EndReason) :
    (h.endLease i l r).st.counts = h.st.counts := by
  simp [endLease]

@[simp] theorem takeTurn_counts (h : Happening) (i : SlotId) (l : Lease) (stop : StopRecord) :
    (h.takeTurn i l stop).st.counts = h.st.counts := by
  unfold takeTurn
  simp only
  split
  · split <;> simp
  · simp

@[simp] theorem enterRetry_counts (h : Happening) (i : SlotId) (l : Lease) (stop : StopRecord) :
    (h.enterRetry i l stop).st.counts = h.st.counts := by
  simp [enterRetry]

@[simp] theorem enterSuspended_counts (h : Happening) (i : SlotId) (l : Lease) :
    (h.enterSuspended i l).st.counts = h.st.counts := by
  simp [enterSuspended]

@[simp] theorem settleStop_counts (h : Happening) (i : SlotId) (l : Lease) (stop : StopRecord) :
    (h.settleStop i l stop).st.counts = h.st.counts := by
  unfold settleStop
  split
  · simp
  · simp only
    split
    · split <;> simp
    · simp
  · simp

@[simp] theorem beginStop_counts (h : Happening) (i : SlotId) (l : Lease) (stop : StopRecord) :
    (h.beginStop i l stop).st.counts = h.st.counts := by
  unfold beginStop
  split
  · simp
  · split <;> simp

@[simp] theorem creditFall_counts (h : Happening) (t : TenantId) (a b : Nat) : (h.creditFall t a b).st.counts = h.st.counts := by
  unfold creditFall; split <;> simp

@[simp] theorem stopLease_counts (h : Happening) (i : SlotId) (l : Lease) (c : StopCause) (f : Option (RailId × FaultKind)) :
    (h.stopLease i l c f).st.counts = h.st.counts := by
  unfold stopLease
  simp only
  split <;> simp

@[simp] theorem unsequence_counts (h : Happening) (i : SlotId) (l : Lease) (stop : StopRecord) :
    (h.unsequence i l stop).st.counts = h.st.counts := by
  simp [unsequence]

@[simp] theorem stopCause_counts (h : Happening) (i : SlotId) (l : Lease) (c : StopCause) :
    (h.stopCause i l c).st.counts = h.st.counts := by
  unfold stopCause
  split
  all_goals first | simp | (split <;> simp)

@[simp] theorem shed_counts (h : Happening) (v : Handle) : (h.shed v).st.counts = h.st.counts := by
  unfold shed
  split
  · split
    · split <;> simp
    all_goals simp
  · simp

@[simp] theorem shedWhile_counts (n : Nat) (h : Happening) : (shedWhile n h).st.counts = h.st.counts := by
  induction n generalizing h with
  | zero => rfl
  | succ n ih =>
    unfold shedWhile
    split
    · split
      · simp [ih]
      · rfl
    · rfl

@[simp] theorem shedPass_counts (h : Happening) : h.shedPass.st.counts = h.st.counts := by simp [shedPass]

@[simp] theorem lapsePassed_counts (h : Happening) (i : SlotId) : (h.lapsePassed i).st.counts = h.st.counts := by
  unfold lapsePassed
  split
  · split <;> simp
  · rfl

@[simp] theorem lapseAndShed_counts (h : Happening) (i : SlotId) : (h.lapseAndShed i).st.counts = h.st.counts := by
  unfold lapseAndShed
  simp only
  split <;> simp

@[simp] theorem completeStop_counts (h : Happening) (i : SlotId) (l : Lease) (stop : StopRecord) :
    (h.completeStop i l stop).st.counts = h.st.counts := by
  unfold completeStop
  simp only
  split
  · split <;> simp
  all_goals simp

@[simp] theorem railDown_counts (h : Happening) (r : RailId) : (h.railDown r).st.counts = h.st.counts := by
  unfold railDown
  split
  · split
    · split
      · simp
      · split
        · split <;> simp
        · rfl
    · rfl
  · rfl

@[simp] theorem faultLease_counts (h : Happening) (r : RailId) (k : FaultKind) : (h.faultLease r k).st.counts = h.st.counts := by
  unfold faultLease
  split
  · split <;> simp
  · rfl

end Happening

/-! ### The end of a happening -/

@[simp] theorem counts_freeContext (s : State) (c : CtxId) : (s.freeContext c).counts = s.counts := by
  unfold State.freeContext; split <;> simp

@[simp] theorem counts_setStage (s : State) (c : CtxId) (x : Stage) : (s.setStage c x).counts = s.counts := by
  unfold State.setStage; split <;> simp

@[simp] theorem counts_setUnderWay (s : State) (t : TenantId) (b : Bool) : (s.setUnderWay t b).counts = s.counts := rfl

namespace Happening

@[simp] theorem answer_counts (h : Happening) (c : CtxId) (a : Status) (d : Detail) (x : Option Handle) (n : Nat) :
    (h.answer c a d x n).st.counts = h.st.counts := by
  unfold answer; split <;> simp

@[simp] theorem reply_counts (h : Happening) (c : CtxId) (a : Status) : (h.reply c a).st.counts = h.st.counts := by simp [reply]

@[simp] theorem grantEntry_counts (h : Happening) (e : QueueEntry) (l : Lease) (k : List Handle) :
    (h.grantEntry e l k).st.counts = h.st.counts := by
  simp [grantEntry]

@[simp] theorem walk_counts (h : Happening) (k : List Handle) (q : List QueueEntry) : (h.walk k q).st.counts = h.st.counts := by
  induction q generalizing h k with
  | nil => rfl
  | cons e q ih =>
    unfold walk
    split
    · split
      · simp only
        split <;> simp [ih]
      · split <;> simp [ih]
    · simp [ih]

@[simp] theorem scan_counts (h : Happening) : h.scan.st.counts = h.st.counts := by simp [scan]

@[simp] theorem drainEnd_counts (h : Happening) : h.drainEnd.st.counts = h.st.counts := by
  unfold drainEnd
  split
  · split
    · rfl
    · simp only
      split
      · split <;> simp
      · simp
  · rfl

@[simp] theorem teardownEnd_counts (h : Happening) (n : TenantId) : (h.teardownEnd n).st.counts = h.st.counts := by
  unfold teardownEnd
  split
  · simp only
    split <;> simp
  · rfl

@[simp] theorem endings_counts (h : Happening) : h.endings.st.counts = h.st.counts := by
  have loop : ∀ (ns : List TenantId) (g : Happening), (ns.foldl teardownEnd g).st.counts = g.st.counts := by
    intro ns
    induction ns with
    | nil => intro g; rfl
    | cons n ns ih => intro g; simp [ih]
  simp [endings, loop]

@[simp] theorem stopSlot_counts (cause : StopCause) (p : Lease → Bool) (h : Happening) (i : SlotId) :
    (stopSlot cause p h i).st.counts = h.st.counts := by
  unfold stopSlot
  split
  · split <;> simp
  · rfl

@[simp] theorem stopAll_counts (h : Happening) (cause : StopCause) (p : Lease → Bool) :
    (h.stopAll cause p).st.counts = h.st.counts := by
  have loop : ∀ (is : List SlotId) (g : Happening), (is.foldl (stopSlot cause p) g).st.counts = g.st.counts := by
    intro is
    induction is with
    | nil => intro g; rfl
    | cons i is ih => intro g; simp [ih]
  simp [stopAll, loop]

end Happening

end Sys2Proof.Machine
end

