-- ==== Sys2Proof/Laws/Settle.lean ====
section
/-! SUPPORT. How a happening ends: what the end of a happening does when it has no scan to make and no drain or teardown to end, and
what a finished command leaves. -/

namespace Sys2Proof.Machine

/-! ### Changes of tenants and command contexts alone -/

/-- The two states differ in the tenants and the command contexts at most. -/
def OnlyRings (s u : State) : Prop := u = { s with tenants := u.tenants, pool := u.pool }

theorem OnlyRings.refl (s : State) : OnlyRings s s := rfl

theorem OnlyRings.trans {s u v : State} (h : OnlyRings s u) (k : OnlyRings u v) : OnlyRings s v := by
  unfold OnlyRings at *
  rw [k, h]

/-! What such a change leaves of each field and each read. -/

theorem OnlyRings.eq {s u : State} (h : OnlyRings s u) : u = { s with tenants := u.tenants, pool := u.pool } := h
theorem OnlyRings.now {s u : State} (h : OnlyRings s u) : u.now = s.now := (congrArg State.now h.eq).trans rfl
theorem OnlyRings.pending {s u : State} (h : OnlyRings s u) : u.pending = s.pending := (congrArg State.pending h.eq).trans rfl
theorem OnlyRings.choices {s u : State} (h : OnlyRings s u) : u.choices = s.choices := (congrArg State.choices h.eq).trans rfl
theorem OnlyRings.slots {s u : State} (h : OnlyRings s u) : u.slots = s.slots := (congrArg State.slots h.eq).trans rfl
theorem OnlyRings.tiers {s u : State} (h : OnlyRings s u) : u.tiers = s.tiers := (congrArg State.tiers h.eq).trans rfl
theorem OnlyRings.feeds {s u : State} (h : OnlyRings s u) : u.feeds = s.feeds := (congrArg State.feeds h.eq).trans rfl
theorem OnlyRings.margin {s u : State} (h : OnlyRings s u) : u.margin = s.margin := (congrArg State.margin h.eq).trans rfl
theorem OnlyRings.accounts {s u : State} (h : OnlyRings s u) : u.accounts = s.accounts := (congrArg State.accounts h.eq).trans rfl
theorem OnlyRings.chargedTotal {s u : State} (h : OnlyRings s u) : u.chargedTotal = s.chargedTotal :=
    (congrArg State.chargedTotal h.eq).trans rfl
theorem OnlyRings.committedTotal {s u : State} (h : OnlyRings s u) : u.committedTotal = s.committedTotal :=
    (congrArg State.committedTotal h.eq).trans rfl
theorem OnlyRings.grantOrder {s u : State} (h : OnlyRings s u) : u.grantOrder = s.grantOrder :=
    (congrArg State.grantOrder h.eq).trans rfl
theorem OnlyRings.queue {s u : State} (h : OnlyRings s u) : u.queue = s.queue := (congrArg State.queue h.eq).trans rfl
theorem OnlyRings.passLimit {s u : State} (h : OnlyRings s u) : u.passLimit = s.passLimit :=
    (congrArg State.passLimit h.eq).trans rfl
theorem OnlyRings.defaultWait {s u : State} (h : OnlyRings s u) : u.defaultWait = s.defaultWait :=
    (congrArg State.defaultWait h.eq).trans rfl
theorem OnlyRings.railConfig {s u : State} (h : OnlyRings s u) : u.railConfig = s.railConfig :=
    (congrArg State.railConfig h.eq).trans rfl
theorem OnlyRings.rails {s u : State} (h : OnlyRings s u) : u.rails = s.rails := (congrArg State.rails h.eq).trans rfl
theorem OnlyRings.faults {s u : State} (h : OnlyRings s u) : u.faults = s.faults := (congrArg State.faults h.eq).trans rfl
theorem OnlyRings.ownership {s u : State} (h : OnlyRings s u) : u.ownership = s.ownership :=
    (congrArg State.ownership h.eq).trans rfl
theorem OnlyRings.lastGranted {s u : State} (h : OnlyRings s u) : u.lastGranted = s.lastGranted :=
    (congrArg State.lastGranted h.eq).trans rfl
theorem OnlyRings.service {s u : State} (h : OnlyRings s u) : u.service = s.service := (congrArg State.service h.eq).trans rfl
theorem OnlyRings.controlRead {s u : State} (h : OnlyRings s u) : u.controlRead = s.controlRead :=
    (congrArg State.controlRead h.eq).trans rfl
theorem OnlyRings.descriptorBase {s u : State} (h : OnlyRings s u) : u.descriptorBase = s.descriptorBase :=
    (congrArg State.descriptorBase h.eq).trans rfl
theorem OnlyRings.lastAction {s u : State} (h : OnlyRings s u) : u.lastAction = s.lastAction :=
    (congrArg State.lastAction h.eq).trans rfl
theorem OnlyRings.outcome {s u : State} (h : OnlyRings s u) : u.outcome = s.outcome := (congrArg State.outcome h.eq).trans rfl
theorem OnlyRings.startError {s u : State} (h : OnlyRings s u) : u.startError = s.startError :=
    (congrArg State.startError h.eq).trans rfl
theorem OnlyRings.slot {s u : State} (h : OnlyRings s u) (i : SlotId) : u.slot i = s.slot i :=
  (congrArg (fun s => State.slot s i) h.eq).trans rfl
theorem OnlyRings.lease? {s u : State} (h : OnlyRings s u) (i : SlotId) : u.lease? i = s.lease? i :=
  (congrArg (fun s => State.lease? s i) h.eq).trans rfl
theorem OnlyRings.tierList {s u : State} (h : OnlyRings s u) (i : RailId) : u.tierList i = s.tierList i :=
  (congrArg (fun s => State.tierList s i) h.eq).trans rfl
theorem OnlyRings.feed {s u : State} (h : OnlyRings s u) (i : FeedId) : u.feed i = s.feed i :=
  (congrArg (fun s => State.feed s i) h.eq).trans rfl
theorem OnlyRings.account {s u : State} (h : OnlyRings s u) (i : TenantId) : u.account i = s.account i :=
  (congrArg (fun s => State.account s i) h.eq).trans rfl
theorem OnlyRings.config {s u : State} (h : OnlyRings s u) (i : RailId) : u.config i = s.config i :=
  (congrArg (fun s => State.config s i) h.eq).trans rfl
theorem OnlyRings.rail {s u : State} (h : OnlyRings s u) (i : RailId) : u.rail i = s.rail i :=
  (congrArg (fun s => State.rail s i) h.eq).trans rfl
theorem OnlyRings.faultRecord {s u : State} (h : OnlyRings s u) (i : RailId) : u.faultRecord i = s.faultRecord i :=
  (congrArg (fun s => State.faultRecord s i) h.eq).trans rfl
theorem OnlyRings.owned {s u : State} (h : OnlyRings s u) (i : RailId) : u.owned i = s.owned i :=
  (congrArg (fun s => State.owned s i) h.eq).trans rfl
theorem OnlyRings.available {s u : State} (h : OnlyRings s u) : u.available = s.available :=
    (congrArg State.available h.eq).trans rfl

theorem onlyRings_setTenant (s : State) (t : TenantId) (x : Tenant) : OnlyRings s (s.setTenant t x) := rfl
theorem onlyRings_setContext (s : State) (c : CtxId) (x : Option Context) : OnlyRings s (s.setContext c x) := rfl

theorem onlyRings_freeContext (s : State) (c : CtxId) : OnlyRings s (s.freeContext c) := by
  unfold State.freeContext
  split
  · exact (onlyRings_setContext s c none).trans (onlyRings_setTenant _ _ _)
  · exact .refl s

theorem onlyRings_setStage (s : State) (c : CtxId) (x : Stage) : OnlyRings s (s.setStage c x) := by
  unfold State.setStage
  split
  · exact onlyRings_setContext s c _
  · exact .refl s

theorem onlyRings_setUnderWay (s : State) (t : TenantId) (b : Bool) : OnlyRings s (s.setUnderWay t b) := rfl

theorem onlyRings_postCompletion (s : State) (t : TenantId) (c : Completion) : OnlyRings s (s.postCompletion t c) := by
  unfold State.postCompletion
  split
  · exact onlyRings_setTenant s t _
  · exact onlyRings_freeContext s _

theorem onlyRings_postMarker (s : State) (t : TenantId) (x : Subject) (r : Reason) : OnlyRings s (s.postMarker t x r) := by
  unfold State.postMarker
  split
  · exact onlyRings_setTenant s t _
  · exact .refl s

/-! ### Markers -/

theorem Tenant.withMarks_nil (x : Tenant) (n : TenantId) : x.withMarks n [] = x := by
  unfold Tenant.withMarks
  split <;> rfl

theorem Tenant.withMarks_hears (x : Tenant) (n : TenantId) (m : List (TenantId × Subject × Reason)) :
    (x.withMarks n m).hears = x.hears := by
  unfold Tenant.withMarks
  split <;> rfl

theorem withMarks_cons (n : TenantId) (m : TenantId × Subject × Reason) (ms : List (TenantId × Subject × Reason))
    (q : List OutEntry) :
    withMarks n (m :: ms) q = withMarks n ms (if m.1 = n then addMarker m.2.1 m.2.2 q else q) := by
  unfold withMarks
  by_cases h : m.1 = n <;> simp [h]

/-- One marker posted. -/
theorem postMarker_tenant (s : State) (t n : TenantId) (x : Subject) (r : Reason) :
    (s.postMarker t x r).tenant n = (s.tenant n).withMarks n [(t, x, r)] := by
  unfold State.postMarker
  by_cases h : t = n
  · subst h
    by_cases k : (s.tenant t).hears <;> simp [k, Tenant.withMarks, withMarks]
  · have h' : ¬ n = t := fun e => h e.symm
    split
    · rw [State.tenant_setTenant, if_neg h']
      unfold Tenant.withMarks
      split
      · simp [withMarks, h]
      · rfl
    · unfold Tenant.withMarks
      split
      · simp [withMarks, h]
      · rfl

theorem Tenant.withMarks_cons (x : Tenant) (n : TenantId) (m : TenantId × Subject × Reason)
    (ms : List (TenantId × Subject × Reason)) : x.withMarks n (m :: ms) = (x.withMarks n [m]).withMarks n ms := by
  unfold Tenant.withMarks
  by_cases h : x.hears
  · have k : ({ x with outbound := Machine.withMarks n [m] x.outbound } : Tenant).hears = true := h
    simp only [h, if_true, k]
    rw [Machine.withMarks_cons]
    simp only [Machine.withMarks_cons n m []]
    simp [Machine.withMarks]
  · simp [h]

/-- The markers of a happening, posted in order (R170). -/
def State.postAll (s : State) (marks : List (TenantId × Subject × Reason)) : State :=
  marks.foldl (fun s m => s.postMarker m.1 m.2.1 m.2.2) s

theorem onlyRings_postAll (s : State) (marks : List (TenantId × Subject × Reason)) : OnlyRings s (s.postAll marks) := by
  unfold State.postAll
  induction marks generalizing s with
  | nil => exact .refl s
  | cons m ms ih => exact (onlyRings_postMarker s _ _ _).trans (ih _)

theorem postAll_pool (s : State) (marks : List (TenantId × Subject × Reason)) : (s.postAll marks).pool = s.pool := by
  unfold State.postAll
  induction marks generalizing s with
  | nil => rfl
  | cons m ms ih =>
    rw [List.foldl_cons, ih]
    unfold State.postMarker
    split <;> rfl

theorem postAll_tenant (s : State) (marks : List (TenantId × Subject × Reason)) (n : TenantId) :
    (s.postAll marks).tenant n = (s.tenant n).withMarks n marks := by
  induction marks generalizing s with
  | nil => rw [Tenant.withMarks_nil]; rfl
  | cons m ms ih =>
    have e : s.postAll (m :: ms) = (s.postMarker m.1 m.2.1 m.2.2).postAll ms := rfl
    rw [e, ih, postMarker_tenant, Tenant.withMarks_cons _ _ m ms]

theorem posts_postAll (s : State) (marks : List (TenantId × Subject × Reason)) : Posts s (s.postAll marks) marks := by
  refine ⟨postAll_tenant s marks, postAll_pool s marks, ?_⟩
  have e := onlyRings_postAll s marks
  unfold OnlyRings at e
  rw [e]

/-! ### Happenings with a quiet end -/

/-- A scan of an empty queue does nothing. -/
theorem scan_empty (h : Happening) (e : h.st.queue = []) : h.scan = h := by
  simp [Happening.scan, e, Happening.walk]

theorem endings_of_no_closing (h : Happening) (e : h.st.service.isDraining = false)
    (k : ∀ n, (h.st.tenant n).state ≠ .closing) : h.endings = h := by
  have d : h.drainEnd = h := by
    unfold Happening.drainEnd
    split
    · next hs => rw [hs] at e; simp [ServiceState.isDraining] at e
    · rfl
  have loop : ∀ ns : List TenantId, ns.foldl Happening.teardownEnd h = h := by
    intro ns
    induction ns with
    | nil => rfl
    | cons n ns ih =>
      have t : h.teardownEnd n = h := by
        unfold Happening.teardownEnd
        rw [if_neg]
        exact fun c => k n c.1
      rw [List.foldl_cons, t, ih]
  unfold Happening.endings
  rw [d, loop]

/-- A happening with no scan to make and nothing to end comes down to its queues (R64, R169, R170). -/
theorem settle_eq_flush (h : Happening) (hr : h.rise = true → h.st.queue = [])
    (hc : h.check = true → h.st.service.isDraining = false ∧ ∀ n, (h.st.tenant n).state ≠ .closing) : h.settle = h.flush := by
  have a : (if h.rise then h.scan else h) = h := by
    split
    · next e => exact scan_empty h (hr e)
    · rfl
  have b : (if h.check then h.endings else h) = h := by
    split
    · next e => exact endings_of_no_closing h (hc e).1 (hc e).2
    · rfl
  unfold Happening.settle
  simp only [a, b]

/-- A slot whose handle a queue holds a marker for is not freed (R18). -/
theorem freeEnded_of_marked (s : State) (i : SlotId) (h : s.marked (s.handleOf i) = true) : s.freeEnded i = s := by
  unfold State.freeEnded
  split
  · rw [if_neg]
    simp [h]
  · rfl

theorem freeEnded_of_live (s : State) (i : SlotId) (l : Lease) (hl : s.lease? i = some l) (h : l.live = true) :
    s.freeEnded i = s := by
  unfold State.freeEnded
  simp [hl, h]

/-- The queues of a happening with no completion and no slot to free. -/
theorem flush_posts (h : Happening) (ha : h.answers = []) (hl : h.loose = []) : h.flush = h.st.postAll h.marks := by
  simp [Happening.flush, ha, hl, State.postAll]

/-! ### Finished commands -/

/-- What a taken command is (R163): its context, with the record that spells it. -/
theorem takenCommand_context {s : State} {t : TenantId} {c : CtxId} {cmd : Command} (h : s.takenCommand t = some (c, cmd)) :
    ∃ x, s.context c = some x ∧ x.tenant = t ∧ x.stage = .taken ∧ Command.read x.record = some cmd := by
  unfold State.takenCommand at h
  split at h
  · next c' x hf =>
    obtain ⟨cmd', hr, he⟩ := Option.map_eq_some_iff.mp h
    cases he
    unfold State.findContext at hf
    obtain ⟨d, -, hd⟩ := List.exists_of_findSome?_eq_some hf
    split at hd
    · next y hy =>
      split at hd
      · next hp =>
        cases hd
        refine ⟨x, hy, hp.1, ?_, hr⟩
        have := hp.2
        unfold Stage.isTaken at this
        split at this
        · assumption
        · cases this
      · cases hd
    · cases hd
  · cases h

/-- The completion that a command in a context finishes with. -/
def completionOf (c : CtxId) (x : Context) (status : Status) (detail : Detail) (handle : Option Handle)
    (charge : Nat) : Completion :=
  { ctx := c, tag := recordTag x.record, kind := recordKind x.record, status := status, detail := detail, handle := handle
    charge := charge }

/-- A context whose command has finished, before its completion joins the queue. -/
def State.finished (s : State) (c : CtxId) (x : Context) : State :=
  (s.setContext c (some { x with stage := .finished })).setUnderWay x.tenant false

theorem answer_eq (h : Happening) (c : CtxId) (x : Context) (hx : h.st.context c = some x) (status : Status) (detail : Detail)
    (handle : Option Handle) (charge : Nat) :
    h.answer c status detail handle charge =
      { h with
        st := h.st.finished c x
        answers := h.answers ++ [(x.tenant, completionOf c x status detail handle charge)] } := by
  unfold Happening.answer
  simp [hx, State.setStage, State.finished, completionOf]

theorem onlyRings_finished (s : State) (c : CtxId) (x : Context) : OnlyRings s (s.finished c x) :=
  (onlyRings_setContext s c _).trans (onlyRings_setUnderWay _ _ _)

/-- The state after a finished command's completion and its happening's markers. -/
def State.finish (s : State) (c : CtxId) (x : Context) (completion : Completion)
    (marks : List (TenantId × Subject × Reason)) : State :=
  ((s.finished c x).postCompletion x.tenant completion).postAll marks

theorem onlyRings_finish (s : State) (c : CtxId) (x : Context) (y : Completion) (m : List (TenantId × Subject × Reason)) :
    OnlyRings s (s.finish c x y m) :=
  ((onlyRings_finished s c x).trans (onlyRings_postCompletion _ _ _)).trans (onlyRings_postAll _ _)

/-- A finished command of a tenant whose queue takes entries (R166, R169, R170). -/
theorem finishes_finish (s : State) (c : CtxId) (x : Context) (hx : s.context c = some x) (hh : (s.tenant x.tenant).hears = true)
    (status : Status) (detail : Detail) (handle : Option Handle) (charge : Nat) (marks : List (TenantId × Subject × Reason)) :
    Finishes s (s.finish c x (completionOf c x status detail handle charge) marks) x.tenant c status detail handle charge
      marks := by
  have hf : ((s.finished c x).tenant x.tenant).hears = true := by
    simp only [State.finished, State.setUnderWay, State.tenant_setTenant_same]
    exact hh
  have e : ∀ y, (s.finished c x).postCompletion x.tenant y =
      (s.finished c x).setTenant x.tenant
        { (s.finished c x).tenant x.tenant with
          outbound := ((s.finished c x).tenant x.tenant).outbound ++ [.completion y] } := by
    intro y
    unfold State.postCompletion
    rw [if_pos hf]
  have hp : ∀ y d, ((s.finished c x).postCompletion x.tenant y).context d = (s.finished c x).context d := by
    intro y d
    rw [e]
    rfl
  refine ⟨x, hx, ?_, ?_, ?_, ?_, ?_⟩
  · have : (s.finish c x (completionOf c x status detail handle charge) marks).context c =
        ((s.finished c x).postCompletion x.tenant (completionOf c x status detail handle charge)).context c := by
      unfold State.finish State.context
      rw [postAll_pool]
    rw [this, hp]
    simp [State.finished, State.setUnderWay]
  · intro d hd
    have : (s.finish c x (completionOf c x status detail handle charge) marks).context d =
        ((s.finished c x).postCompletion x.tenant (completionOf c x status detail handle charge)).context d := by
      unfold State.finish State.context
      rw [postAll_pool]
    rw [this, hp]
    simp [State.finished, State.setUnderWay, State.context_setContext, hd]
  · unfold State.finish
    rw [postAll_tenant, e, State.tenant_setTenant_same]
    unfold Tenant.withMarks
    rw [if_pos]
    · simp [State.finished, State.setUnderWay, completionOf]
    · exact hf
  · intro n hn
    unfold State.finish
    rw [postAll_tenant, e, State.tenant_setTenant, if_neg hn]
    simp [State.finished, State.setUnderWay, State.tenant_setTenant, hn]
  · have := onlyRings_finish s c x (completionOf c x status detail handle charge) marks
    unfold OnlyRings at this
    rw [this]

/-- The end of a happening in which a command finishes, with nothing else to end: what it finishes with, and which slots may be
freed. -/
theorem settle_answer (h : Happening) (c : CtxId) (x : Context) (hx : h.st.context c = some x) (ha : h.answers = [])
    (hr : h.rise = true → h.st.queue = [])
    (hc : h.check = true → h.st.service.isDraining = false ∧ ∀ n, (h.st.tenant n).state ≠ .closing)
    (status : Status) (detail : Detail) (handle : Option Handle) (charge : Nat) :
    (h.answer c status detail handle charge).settle =
      h.loose.foldl State.freeEnded (h.st.finish c x (completionOf c x status detail handle charge) h.marks) := by
  rw [answer_eq h c x hx]
  rw [settle_eq_flush]
  · simp [Happening.flush, ha, State.finish, State.postAll]
  · intro k
    exact (congrArg State.queue (onlyRings_finished h.st c x)).trans (hr k)
  · intro k
    refine ⟨(congrArg (fun s => s.service.isDraining) (onlyRings_finished h.st c x)).trans (hc k).1, ?_⟩
    intro n
    have : ((h.st.finished c x).tenant n).state = (h.st.tenant n).state := by
      simp only [State.finished, State.setUnderWay, State.tenant_setTenant]
      split
      · next e => rw [e]; rfl
      · rfl
    show ((h.st.finished c x).tenant n).state ≠ .closing
    rw [this]
    exact (hc k).2 n

/-- A command refused finishes with its status and changes nothing else (R169). -/
theorem refuse_finishes (s : State) (t : TenantId) (c : CtxId) (cmd : Command) (h : s.Holds t c cmd) (status : Status)
    (detail : Detail) :
    Finishes s (s.refuse c status detail) t c status detail none 0 [] ∧ OnlyRings s (s.refuse c status detail) := by
  obtain ⟨x, hx, ht, -, -⟩ := takenCommand_context h.1
  subst ht
  have e : s.refuse c status detail = s.finish c x (completionOf c x status detail none 0) [] := by
    unfold State.refuse
    rw [settle_answer s.begin c x hx rfl (by simp [State.begin]) (by simp [State.begin])]
    rfl
  rw [e]
  exact ⟨finishes_finish s c x hx h.2 status detail none 0 [], onlyRings_finish _ _ _ _ _⟩

/-! ### What a happening comes to, in one lemma each -/

/-- Two states with the same tenants, contexts and turn. -/
def SameRings (s u : State) : Prop := u.tenants = s.tenants ∧ u.pool = s.pool ∧ u.lastGranted = s.lastGranted

theorem SameRings.tenant {s u : State} (h : SameRings s u) (n : TenantId) : u.tenant n = s.tenant n := congrArg (vget · n) h.1
theorem SameRings.context {s u : State} (h : SameRings s u) (c : CtxId) : u.context c = s.context c := congrArg (vget · c) h.2.1

theorem SameRings.posts {s v u : State} (h : SameRings s v) {m : List (TenantId × Subject × Reason)} (p : Posts v u m) :
    Posts s u m :=
  ⟨fun n => by rw [p.1, h.tenant], p.2.1.trans h.2.1, p.2.2.trans h.2.2⟩

theorem SameRings.finishes {s v u : State} (h : SameRings s v) {t : TenantId} {c : CtxId} {status : Status} {detail : Detail}
    {handle : Option Handle} {charge : Nat} {m : List (TenantId × Subject × Reason)}
    (p : Finishes v u t c status detail handle charge m) : Finishes s u t c status detail handle charge m := by
  obtain ⟨x, h1, h2, h3, h4, h5, h6⟩ := p
  refine ⟨x, by rw [← h1, h.context], h2, fun d k => by rw [h3 d k, h.context], by rw [h4, h.tenant], fun n k => ?_,
    h6.trans h.2.2⟩
  rw [h5 n k, h.tenant]

/-- A happening that finishes no command and frees no slot comes to its state with its markers posted. -/
theorem posted (s : State) (h : Happening) (e : SameRings s h.st) (ha : h.answers = []) (hl : h.loose = [])
    (hr : h.rise = true → h.st.queue = [])
    (hc : h.check = true → h.st.service.isDraining = false ∧ ∀ n, (h.st.tenant n).state ≠ .closing) :
    Posts s h.settle h.marks ∧ OnlyRings h.st h.settle := by
  rw [settle_eq_flush h hr hc, flush_posts h ha hl]
  exact ⟨e.posts (posts_postAll _ _), onlyRings_postAll _ _⟩

/-- A happening that finishes one command and frees no slot comes to its state with the command finished. -/
theorem answered (s : State) (h : Happening) (t : TenantId) (c : CtxId) (cmd : Command) (H : s.Holds t c cmd)
    (e : SameRings s h.st) (ha : h.answers = []) (hl : h.loose = []) (hr : h.rise = true → h.st.queue = [])
    (hc : h.check = true → h.st.service.isDraining = false ∧ ∀ n, (h.st.tenant n).state ≠ .closing)
    (status : Status) (detail : Detail) (handle : Option Handle) (charge : Nat) :
    Finishes s (h.answer c status detail handle charge).settle t c status detail handle charge h.marks ∧
      OnlyRings h.st (h.answer c status detail handle charge).settle := by
  obtain ⟨x, hx, ht, -, -⟩ := takenCommand_context H.1
  subst ht
  have hx' : h.st.context c = some x := by rw [e.context]; exact hx
  rw [settle_answer h c x hx' ha hr hc, hl]
  refine ⟨e.finishes (finishes_finish h.st c x hx' ?_ status detail handle charge h.marks), onlyRings_finish _ _ _ _ _⟩
  rw [e.tenant]
  exact H.2

end Sys2Proof.Machine
end

