-- ==== Sys2Proof/Laws/Ops.lean ====
section
/-! SUPPORT. What the shared operations do, one lemma each: what a handle resolves to,
    what the end and the stop of a lease leave, what
the ends of drains, teardowns and happenings change. -/

namespace Sys2Proof.Machine

/-! ### Leases by handle -/

/-- What a live lease's handle says: its slot holds the record at the handle's generation (R2, R3). -/
theorem liveLease_slot {s : State} {h : Handle} {l : Lease} (e : s.liveLease h = some l) :
    s.slot h.slot = { gen := h.gen, lease := some l } ∧ l.live = true ∧ s.handleOf h.slot = h ∧ s.resolve h = some l ∧ s.lease? h.slot = some l := by
  unfold State.liveLease at e
  split at e
  · next l' hr =>
    split at e
    · next hl =>
      cases e
      have hr' := hr
      unfold State.resolve at hr
      split at hr
      · next hg =>
        unfold State.lease? at hr
        refine ⟨?_, hl, ?_, hr', hr⟩
        · cases hs : s.slot h.slot; rw [hs] at hg hr; simp_all
        · unfold State.handleOf; rw [hg]
      · cases hr
    · cases e
  · cases e

/-- What a handle that resolves says (R3). -/
theorem resolve_slot {s : State} {h : Handle} {l : Lease} (e : s.resolve h = some l) : (s.slot h.slot).gen = h.gen ∧ s.lease? h.slot = some l ∧ s.handleOf h.slot = h := by
  unfold State.resolve at e
  split at e
  · next g => refine ⟨g, e, ?_⟩; unfold State.handleOf; rw [g]
  · cases e

/-- Where no lease is live, no slot holds a live one. -/
theorem not_live_of_not_anyLive {s : State} (h : s.anyLive = false) (i : SlotId) (l : Lease) (hl : s.lease? i = some l) : l.live = false := by
  unfold State.anyLive at h
  rw [List.any_eq_false] at h
  have := h i (List.mem_finRange i)
  rw [hl] at this
  simpa using this

/-- A live lease stands in some slot. -/
theorem anyLive_iff (s : State) : s.anyLive = true ↔ ∃ j l, s.lease? j = some l ∧ l.live = true := by
  unfold State.anyLive
  rw [List.any_eq_true]
  constructor
  · rintro ⟨j, -, h⟩
    split at h
    · next l hl => exact ⟨j, l, hl, h⟩
    · cases h
  · rintro ⟨j, l, hl, h⟩
    refine ⟨j, List.mem_finRange j, ?_⟩
    rw [hl]; exact h

/-! ### Orders the spec leaves open -/

theorem mem_freeInsert {α : Type} (n : Nat) (key : α → Nat) (x y : α) (l : List α) : y ∈ freeInsert n key x l ↔ y = x ∨ y ∈ l := by
  induction l with
  | nil => simp [freeInsert]
  | cons z zs ih =>
    unfold freeInsert
    split
    · simp
    · simp [ih]; tauto

/-- Whatever order open point `n` gives a list, it keeps its members (log entry 8). -/
theorem mem_freeOrder {α : Type} (n : Nat) (key : α → Nat) (y : α) (l : List α) : y ∈ freeOrder n key l ↔ y ∈ l := by
  induction l with
  | nil => simp [freeOrder]
  | cons z zs ih => simp [freeOrder, mem_freeInsert, ih]

/-! ### Memberships and falls -/

/-- Setting memberships changes the lease handles of the members' rails and nothing else (R98). -/
theorem setMemberships_rails (s : State) (ms : List Member) (h : Option Handle) :
    ∃ v, s.setMemberships ms h = { s with rails := v } ∧
      ∀ r, vget v r = if r ∈ ms.map Member.rail then { s.rail r with lease := h } else s.rail r := by
  unfold State.setMemberships
  induction ms generalizing s with
  | nil => exact ⟨s.rails, rfl, fun r => by simp; rfl⟩
  | cons m ms ih =>
    obtain ⟨v, hv, hr⟩ := ih (s.setMembership m.rail h)
    refine ⟨v, ?_, ?_⟩
    · rw [List.foldl_cons, hv]; rfl
    · intro r
      rw [hr r]
      simp only [State.setMembership, State.rail_setRail, List.map_cons, List.mem_cons]
      by_cases e : r = m.rail
      · simp [e]
      · simp [e]

/-- The slots, the deferred queue and the service state are as they were. -/
def KeepsTable (s u : State) : Prop := u.slots = s.slots ∧ u.queue = s.queue ∧ u.service = s.service

theorem KeepsTable.trans {s u v : State} (a : KeepsTable s u) (b : KeepsTable u v) : KeepsTable s v := ⟨b.1.trans a.1, b.2.1.trans a.2.1, b.2.2.trans a.2.2⟩

theorem keepsTable_enterFalling (s : State) (r : RailId) : KeepsTable s (s.enterFalling r) := by
  unfold State.enterFalling; split <;> exact ⟨rfl, rfl, rfl⟩

theorem keepsTable_fallAll (s : State) (ms : List Member) : KeepsTable s (s.fallAll ms) := by
  unfold State.fallAll
  induction ms generalizing s with
  | nil => exact ⟨rfl, rfl, rfl⟩
  | cons m ms ih => exact (keepsTable_enterFalling s _).trans (ih _)

theorem keepsTable_setMemberships (s : State) (ms : List Member) (h : Option Handle) : KeepsTable s (s.setMemberships ms h) := by
  obtain ⟨v, hv, -⟩ := setMemberships_rails s ms h; rw [hv]; exact ⟨rfl, rfl, rfl⟩

/-! ### Ends and stops of leases -/

/-- The end of a lease: its slot holds the ENDED record, its entry leaves the queue if it waited, and no other slot changes (R12). -/
theorem endLease_effect (h : Happening) (i : SlotId) (l : Lease) (r : EndReason) :
   (∀ j, (h.endLease i l r).st.slot j = if j = i then { h.st.slot i with lease := some { l with state := .ended r, term := none, count := l.count + 1 } } else h.st.slot j) ∧
   (h.endLease i l r).st.queue = (if l.waits then h.st.queue.filter (fun e => e.handle ≠ h.st.handleOf i) else h.st.queue) ∧
   (h.endLease i l r).st.service = h.st.service := by
  have g : (h.giveBack i l).st.slots = h.st.slots ∧ (h.giveBack i l).st.queue = (if l.waits then h.st.queue.filter
      (fun e => e.handle ≠ h.st.handleOf i) else h.st.queue) ∧ (h.giveBack i l).st.service = h.st.service := by
    unfold Happening.giveBack Lease.waits
    cases l.state <;> exact ⟨rfl, rfl, rfl⟩
  have m := keepsTable_setMemberships (h.giveBack i l).st l.members none
  unfold Happening.endLease Happening.changeLease Happening.putLease
  simp only [Happening.map, Happening.mark, Happening.loosen, Happening.checked]
  refine ⟨?_, m.2.1.trans g.2.1, m.2.2.trans g.2.2⟩
  intro j
  have e : ((h.giveBack i l).st.setMemberships l.members none).slots = h.st.slots := m.1.trans g.1
  unfold State.setLease State.setSlot State.slot
  simp only [vget_vset, e]

/-- The choice of the member in turn (R112): the lease's slot alone changes. -/
theorem takeTurn_effect (h : Happening) (i : SlotId) (l : Lease) (stop : StopRecord) :
   (∀ j, (h.takeTurn i l stop).st.slot j = if j = i then { h.st.slot i with lease := some { l with state := .stopping { stop with inTurn := h.st.turnOf l.members } } } else h.st.slot j) ∧
   (h.takeTurn i l stop).st.queue = h.st.queue ∧ (h.takeTurn i l stop).st.service = h.st.service := by
  have p : ∀ x, (∀ j, (h.putLease i x).st.slot j = if j = i then { h.st.slot i with lease := some x } else h.st.slot j) ∧ (h.putLease i x).st.queue = h.st.queue ∧ (h.putLease i x).st.service = h.st.service := by
    intro x
    refine ⟨?_, rfl, rfl⟩
    intro j
    unfold Happening.putLease
    simp only [Happening.map]
    unfold State.setLease State.setSlot State.slot
    simp only [vget_vset]
  unfold Happening.takeTurn
  simp only
  obtain ⟨p1, p2, p3⟩ := p { l with state := .stopping { stop with inTurn := h.st.turnOf l.members } }
  split
  · split
    · next m _ =>
      have f := keepsTable_enterFalling (h.putLease i { l with state := .stopping { stop with inTurn := h.st.turnOf l.members } }).st m.rail
      refine ⟨?_, f.2.1.trans p2, f.2.2.trans p3⟩
      intro j
      rw [← p1 j]
      exact congrArg (vget · j) f.1
    · exact ⟨p1, p2, p3⟩
  · exact ⟨p1, p2, p3⟩

/-- A stop cause other than FAULT and SHED reaches a lease (R9, R10, R13): it is ENDED or STOPPING afterwards, and no other slot changes. -/
theorem stopCause_effect (h : Happening) (i : SlotId) (l : Lease) (cause : StopCause) (hl : h.st.lease? i = some l)
    (h1 : cause ≠ .fault) (h2 : cause ≠ .shed) :
   (∀ j, j ≠ i → (h.stopCause i l cause).st.slot j = h.st.slot j) ∧
   ((h.stopCause i l cause).st.slot i).gen = (h.st.slot i).gen ∧
   (∃ l', (h.stopCause i l cause).st.lease? i = some l' ∧ (l'.live = true → ∃ stop, l'.state = .stopping stop ∧
       (cause = .emergency → stop.mode = .unsequenced))) ∧
   (h.stopCause i l cause).st.queue = (if l.waits then h.st.queue.filter (fun e => e.handle ≠ h.st.handleOf i) else h.st.queue) ∧
   (h.stopCause i l cause).st.service = h.st.service := by
  have key : ∀ (g : Happening) (x : Lease) (r : EndReason), (∀ j, j ≠ i → (g.endLease i x r).st.slot j = g.st.slot j) ∧
   ((g.endLease i x r).st.slot i).gen = (g.st.slot i).gen ∧
   (∃ l', (g.endLease i x r).st.lease? i = some l' ∧ (l'.live = true → ∃ stop, l'.state = .stopping stop ∧
       (cause = .emergency → stop.mode = .unsequenced))) ∧
   (g.endLease i x r).st.queue = (if x.waits then g.st.queue.filter (fun e => e.handle ≠ g.st.handleOf i) else g.st.queue) ∧
   (g.endLease i x r).st.service = g.st.service := by
    intro g x r
    obtain ⟨e1, e2, e3⟩ := endLease_effect g i x r
    refine ⟨fun j hj => by rw [e1, if_neg hj], by rw [e1, if_pos rfl], ?_, e2, e3⟩
    refine ⟨{ x with state := .ended r, term := none, count := x.count + 1 }, ?_, ?_⟩
    · unfold State.lease?; rw [e1, if_pos rfl]
    · intro k; cases k
  have stopping : ∀ (p : l.waits = false), (∀ j, j ≠ i → (h.stopLease i l cause none).st.slot j = h.st.slot j) ∧
   ((h.stopLease i l cause none).st.slot i).gen = (h.st.slot i).gen ∧
   (∃ l', (h.stopLease i l cause none).st.lease? i = some l' ∧ (l'.live = true → ∃ stop, l'.state = .stopping stop ∧
       (cause = .emergency → stop.mode = .unsequenced))) ∧
   (h.stopLease i l cause none).st.queue = h.st.queue ∧
   (h.stopLease i l cause none).st.service = h.st.service := by
    intro p
    unfold Happening.stopLease
    simp only
    set r := l.resolved cause
    set stop := stopRecord l cause none with hstop
    have hcf : KeepsTable h.st (h.creditFall l.tenant l.charge r.charge).st := by
      unfold Happening.creditFall; split <;> exact ⟨rfl, rfl, rfl⟩
    set h1' := h.creditFall l.tenant l.charge r.charge
    set x : Lease := { r with state := .stopping stop, count := r.count + 1 } with hx
    set h3 := (h1'.map fun s => ({ s with committedTotal := s.committedTotal - r.charge } : State).leaveList (s.handleOf i)).changeLease i { r with state := .stopping stop } .stopping with hh3
    have s3 : ∀ j, h3.st.slot j = if j = i then { h.st.slot i with lease := some x } else h.st.slot j := by
      intro j
      rw [hh3]
      unfold Happening.changeLease Happening.putLease
      simp only [Happening.map, Happening.mark]
      unfold State.setLease State.setSlot State.slot State.leaveList
      simp only [vget_vset, hcf.1]
      rfl
    have q3 : h3.st.queue = h.st.queue := hcf.2.1
    have v3 : h3.st.service = h.st.service := hcf.2.2
    have hl3 : h3.st.lease? i = some x := by unfold State.lease?; rw [s3, if_pos rfl]
    rw [hl3]
    simp only
    have hcs : stop.cause = cause := rfl
    have hcm : cause = .emergency → stop.mode = .unsequenced := by intro e; rw [hstop]; simp [stopRecord, e]
    have hsm : stop.suspendMark = false := by rw [hstop]; simp [stopRecord, h2]
    have xw : x.waits = false := rfl
    unfold Happening.beginStop
    split
    · unfold Happening.settleStop
      have ho : ∃ reason, h3.st.stopOutcome x stop = .finish reason := by
        unfold State.stopOutcome
        simp only [hcs, h1, if_false, hsm, Bool.false_and]
        split
        · exact ⟨_, rfl⟩
        · exact ⟨_, rfl⟩
      obtain ⟨reason, ho⟩ := ho
      rw [ho]
      simp only
      obtain ⟨k1, k2, k3, k4, k5⟩ := key h3 x reason
      refine ⟨fun j hj => by rw [k1 j hj, s3, if_neg hj], by rw [k2, s3, if_pos rfl], k3, by rw [k4, xw]; exact q3, k5.trans v3⟩
    · split
      · next hm =>
        obtain ⟨k1, k2, k3⟩ := takeTurn_effect h3 i x stop
        refine ⟨fun j hj => by rw [k1, if_neg hj, s3, if_neg hj], by rw [k1, if_pos rfl, s3, if_pos rfl], ⟨_, by unfold State.lease?; rw [k1, if_pos rfl], ?_⟩, k2.trans q3, k3.trans v3⟩
        intro _
        exact ⟨_, rfl, hcm⟩
      · next hm =>
        have f := keepsTable_fallAll h3.st x.members
        have fs : ∀ j, (h3.st.fallAll x.members).slot j = h3.st.slot j := fun j => congrArg (vget · j) f.1
        refine ⟨fun j hj => (fs j).trans (by rw [s3, if_neg hj]), by show ((h3.st.fallAll x.members).slot i).gen = _; rw [fs, s3, if_pos rfl], ⟨x, by show ((h3.st.fallAll x.members).slot i).lease = _; rw [fs, s3, if_pos rfl], ?_⟩, f.2.1.trans q3, f.2.2.trans v3⟩
        intro _
        exact ⟨_, rfl, hcm⟩
  unfold Happening.stopCause
  cases hs : l.state with
  | waiting => exact key h l _
  | suspended => exact key h l _
  | retryWait d => exact key h l _
  | starting p =>
    have w : l.waits = false := by simp [Lease.waits, hs]
    simp only [w]; exact stopping w
  | active =>
    have w : l.waits = false := by simp [Lease.waits, hs]
    simp only [w]; exact stopping w
  | adjusting a =>
    have w : l.waits = false := by simp [Lease.waits, hs]
    simp only [w]; exact stopping w
  | ended r =>
    have w : l.waits = false := by simp [Lease.waits, hs]
    simp only [w]
    refine ⟨fun j _ => by trivial, by trivial, ⟨l, hl, ?_⟩, by trivial, by trivial⟩
    intro k; simp [Lease.live, hs] at k
  | stopping stop =>
    have w : l.waits = false := by simp [Lease.waits, hs]
    simp only [w]
    split
    · next he =>
      unfold Happening.unsequence Happening.putLease
      simp only [Happening.map]
      have f := keepsTable_fallAll (h.st.setLease i { l with state := .stopping { stop with mode := .unsequenced, inTurn := none } }) l.members
      have fs : ∀ j, ((h.st.setLease i { l with state := .stopping { stop with mode := .unsequenced, inTurn := none } }).fallAll l.members).slot j = if j = i then { h.st.slot i with lease := some { l with state := .stopping { stop with mode := .unsequenced, inTurn := none } } } else h.st.slot j := by
        intro j
        have : _ = _ := congrArg (vget · j) f.1
        unfold State.slot
        refine this.trans ?_
        unfold State.setLease State.setSlot State.slot
        simp only [vget_vset]
      refine ⟨fun j hj => by rw [fs, if_neg hj], by rw [fs, if_pos rfl], ⟨_, by unfold State.lease?; rw [fs, if_pos rfl], ?_⟩, f.2.1, f.2.2⟩
      intro _
      exact ⟨_, rfl, fun _ => rfl⟩
    · next he =>
      refine ⟨fun j _ => rfl, rfl, ⟨l, hl, ?_⟩, rfl, rfl⟩
      intro _
      exact ⟨stop, hs, fun e => absurd e he⟩

/-- A stop cause that no live lease satisfies leaves all as it is. -/
theorem stopAll_of_none (h : Happening) (cause : StopCause) (p : Lease → Bool) (hd : ∀ i l, h.st.lease? i = some l →
    (l.live && p l) = false) :
    h.stopAll cause p = h.map State.chosen := by
  unfold Happening.stopAll
  generalize freeOrder h.st.choices Fin.val (List.finRange 16) = q
  induction q with
  | nil => rfl
  | cons i q ih =>
    rw [List.foldl_cons]
    have : Happening.stopSlot cause p (h.map State.chosen) i = h.map State.chosen := by
      unfold Happening.stopSlot
      split
      · next l hl =>
        have : (l.live && p l) = false := hd i l hl
        rw [this]; simp
      · rfl
    rw [this, ih]

/-! ### The budget -/

/-- What a change of feeds or margin adds to a happening (R56, R64, R74). -/
theorem budgetMoved_begin (b : State) (before : Nat) (reason : Reason) :
   (b.begin.budgetMoved before reason).st = b ∧ (b.begin.budgetMoved before reason).answers = [] ∧
       (b.begin.budgetMoved before reason).loose = [] ∧ (b.begin.budgetMoved before reason).check = false ∧
       (b.begin.budgetMoved before reason).rise = decide (before < b.available) ∧
       (b.begin.budgetMoved before reason).marks = if b.available = before then [] else budgetMarks reason := by
  unfold Happening.budgetMoved
  split
  · next h =>
    have h' : b.available = before := h
    simp [State.begin] at h ⊢; simp [h]
  · next h =>
    have h' : ¬ b.available = before := h
    split
    · next h2 =>
      have h2' : before < b.available := h2
      simp [Happening.markBudget, State.begin, List.finRange, Happening.mark, Happening.risen, budgetMarks, List.ofFn_succ, h2']
    · next h2 =>
      have h2' : ¬ before < b.available := h2
      simp [Happening.markBudget, State.begin, List.finRange, Happening.mark, budgetMarks, List.ofFn_succ]
      omega

/-- No shed pass is made while the committed total is within the available budget (R67). -/
theorem shedPass_of_fits (h : Happening) (k : h.st.committedTotal ≤ h.st.available) : h.shedPass = h := by
  unfold Happening.shedPass
  cases h.st.grantOrder.length with
  | zero => rfl
  | succ n => unfold Happening.shedWhile; rw [if_neg (by omega)]

/-- A change of a lease's record reaches its own slot alone. -/
theorem changeLease_slot (h : Happening) (i : SlotId) (l : Lease) (r : Reason) (j : SlotId) :
    (h.changeLease i l r).st.slot j =
      if j = i then { h.st.slot i with lease := some { l with count := l.count + 1 } } else h.st.slot j := by
  unfold Happening.changeLease Happening.putLease
  simp only [Happening.map, Happening.mark]
  unfold State.setLease State.setSlot State.slot
  simp only [vget_vset]

/-- SUSPENDED is entered with the members and the term the lease had (R11, R68). -/
theorem enterSuspended_slot (h : Happening) (i : SlotId) (l : Lease) (j : SlotId) :
    (h.enterSuspended i l).st.slot j =
      if j = i then
        { h.st.slot i with lease := some { l with state := .suspended, charge := chargeOf l.members, count := l.count + 1 } }
      else h.st.slot j := by
  unfold Happening.enterSuspended
  simp only [changeLease_slot]
  rfl

/-- What the carrying out of a stop's outcome leaves of the other slots (R11). -/
theorem settleStop_otherSlots (h : Happening) (i : SlotId) (l : Lease) (stop : StopRecord) (j : SlotId) (e : j ≠ i) :
    (h.settleStop i l stop).st.slot j = h.st.slot j := by
  have s : ((h.map fun s => s.creditHeld l.tenant l.charge).risen.enterSuspended i l).st.slot j = h.st.slot j := by
    rw [enterSuspended_slot, if_neg e]; rfl
  unfold Happening.settleStop
  split
  · unfold Happening.enterRetry
    simp only [changeLease_slot, if_neg e]
    rfl
  · simp only
    split
    · split
      · rw [(endLease_effect _ _ _ _).1, if_neg e, s]
      · exact s
    · exact s
  · rw [(endLease_effect _ _ _ _).1, if_neg e]

/-- What a stop leaves of the other slots (R9). -/
theorem stopLease_otherSlots (h : Happening) (i : SlotId) (l : Lease) (cause : StopCause) (fault : Option (RailId × FaultKind))
    (j : SlotId) (e : j ≠ i) : (h.stopLease i l cause fault).st.slot j = h.st.slot j := by
  unfold Happening.stopLease
  simp only
  set r := l.resolved cause
  set g := ((h.creditFall l.tenant l.charge r.charge).map fun s =>
    ({ s with committedTotal := s.committedTotal - r.charge } : State).leaveList (s.handleOf i)).changeLease i
      { r with state := .stopping (stopRecord l cause fault) } .stopping with hg
  have s : g.st.slot j = h.st.slot j := by
    rw [hg, changeLease_slot, if_neg e]
    unfold Happening.creditFall
    split <;> rfl
  split
  · unfold Happening.beginStop
    split
    · rw [settleStop_otherSlots _ _ _ _ _ e, s]
    · split
      · rw [(takeTurn_effect _ _ _ _).1, if_neg e, s]
      · exact (congrArg (vget · j) (keepsTable_fallAll _ _).1).trans s
  · exact s

/-- A lease that waits for a retry or for its restore, or has ended, with the term it had if it is live: what a lease in RETRY_WAIT
can be after victims of a shed pass (R68). -/
def Lease.Idle (term : Option Term) (l : Lease) : Prop :=
  (((∃ d, l.state = .retryWait d) ∨ l.state = .suspended) ∧ l.term = term) ∨ ∃ reason, l.state = .ended reason

/-- One victim of a shed pass leaves an idle lease idle, in its slot and generation (R68). -/
theorem shed_idle (h : Happening) (v : Handle) (i : SlotId) (gen : BitVec 12) (term : Option Term)
    (k : ∃ l, h.st.slot i = { gen := gen, lease := some l } ∧ l.Idle term) :
    ∃ l, (h.shed v).st.slot i = { gen := gen, lease := some l } ∧ l.Idle term := by
  obtain ⟨l, hl, hi⟩ := k
  unfold Happening.shed
  by_cases e : i = v.slot
  · subst e
    rw [show h.st.lease? v.slot = some l from congrArg Slot.lease hl]
    rcases hi with ⟨⟨d, hd⟩ | hd, ht⟩ | ⟨r, hr⟩
    · simp only [hd]
      split
      · refine ⟨{ l with state := .suspended, charge := chargeOf l.members, count := l.count + 1 }, ?_, Or.inl ⟨Or.inr rfl, ht⟩⟩
        rw [enterSuspended_slot, if_pos rfl]
        show ({ h.st.slot v.slot with lease := some _ } : Slot) = _
        rw [hl]
      · exact ⟨_, by rw [(endLease_effect _ _ _ _).1, if_pos rfl, hl], Or.inr ⟨_, rfl⟩⟩
    · simp only [hd]; exact ⟨l, hl, Or.inl ⟨Or.inr hd, ht⟩⟩
    · simp only [hr]; exact ⟨l, hl, Or.inr ⟨r, hr⟩⟩
  · have same : ∀ g : Happening, g.st.slot i = h.st.slot i → ∃ x, g.st.slot i = { gen := gen, lease := some x } ∧ x.Idle term :=
      fun g eg => ⟨l, eg.trans hl, hi⟩
    split
    · split
      · split
        · exact same _ (by rw [enterSuspended_slot, if_neg e]; rfl)
        · exact same _ (by rw [(endLease_effect _ _ _ _).1, if_neg e])
      · exact same _ (stopLease_otherSlots _ _ _ _ _ _ e)
      · exact same _ (stopLease_otherSlots _ _ _ _ _ _ e)
      · exact same _ (stopLease_otherSlots _ _ _ _ _ _ e)
      · exact same _ rfl
    · exact same _ rfl

/-- A shed pass leaves an idle lease idle (R67, R68). -/
theorem shedPass_idle (h : Happening) (i : SlotId) (gen : BitVec 12) (term : Option Term)
    (k : ∃ l, h.st.slot i = { gen := gen, lease := some l } ∧ l.Idle term) :
    ∃ l, h.shedPass.st.slot i = { gen := gen, lease := some l } ∧ l.Idle term := by
  unfold Happening.shedPass
  generalize h.st.grantOrder.length = n
  induction n generalizing h with
  | zero => exact k
  | succ n ih =>
    unfold Happening.shedWhile
    split
    · split
      · exact ih _ (shed_idle _ _ _ _ _ k)
      · exact k
    · exact k

/-- A lease that has ended is as it was after a shed pass. -/
theorem shedPass_ended (h : Happening) (i : SlotId) (gen : BitVec 12) (l : Lease) (reason : EndReason)
    (hl : h.st.slot i = { gen := gen, lease := some l }) (hr : l.state = .ended reason) :
    h.shedPass.st.slot i = { gen := gen, lease := some l } := by
  unfold Happening.shedPass
  generalize h.st.grantOrder.length = n
  induction n generalizing h with
  | zero => exact hl
  | succ n ih =>
    unfold Happening.shedWhile
    split
    · split
      · next v _ =>
        apply ih
        unfold Happening.shed
        by_cases e : i = v.slot
        · subst e
          rw [show h.st.lease? v.slot = some l from congrArg Slot.lease hl]
          simp only [hr]
          exact hl
        · split
          · split
            · split
              · rw [enterSuspended_slot, if_neg e]; exact hl
              · rw [(endLease_effect _ _ _ _).1, if_neg e]; exact hl
            · rw [stopLease_otherSlots _ _ _ _ _ _ e]; exact hl
            · rw [stopLease_otherSlots _ _ _ _ _ _ e]; exact hl
            · rw [stopLease_otherSlots _ _ _ _ _ _ e]; exact hl
            · exact hl
          · exact hl
      · exact hl
    · exact hl

/-- The lapse of an idle lease whose term has passed ends it with LAPSED, if it is live (R11, R21). -/
theorem lapsePassed_idle (h : Happening) (i : SlotId) (gen : BitVec 12) (term : Term) (l : Lease)
    (hl : h.st.slot i = { gen := gen, lease := some l }) (hi : l.Idle (some term)) (hp : term.deadline ≤ h.st.now)
    (hv : l.live = true) :
    ∃ x, (h.lapsePassed i).st.slot i = { gen := gen, lease := some x } ∧ x.state = .ended .lapsed ∧ x.term = none := by
  unfold Happening.lapsePassed
  rw [show h.st.lease? i = some l from congrArg Slot.lease hl]
  rcases hi with ⟨hs, ht⟩ | ⟨r, hr⟩
  · simp only [State.termPassed, ht, hp, decide_true, if_true]
    unfold Happening.stopCause
    rcases hs with ⟨d, hd⟩ | hd <;> simp only [hd] <;>
      exact ⟨_, by rw [(endLease_effect _ _ _ _).1, if_pos rfl, hl], rfl, rfl⟩
  · simp [Lease.live, hr] at hv

/-- Whatever the order of the lapse and the shed pass, the lease of the stop ends with LAPSED (R11). -/
theorem lapseAndShed_lapses (h : Happening) (i : SlotId) (gen : BitVec 12) (term : Term) (l : Lease) (d : Nat)
    (hl : h.st.slot i = { gen := gen, lease := some l }) (hs : l.state = .retryWait d) (ht : l.term = some term)
    (hp : term.deadline ≤ h.st.now) :
    ∃ x, (h.lapseAndShed i).st.slot i = { gen := gen, lease := some x } ∧ x.state = .ended .lapsed ∧ x.term = none := by
  have hi : l.Idle (some term) := Or.inl ⟨Or.inl ⟨d, hs⟩, ht⟩
  unfold Happening.lapseAndShed
  simp only
  split
  · obtain ⟨x, hx, he, hn⟩ := lapsePassed_idle (h.map State.chosen) i gen term l hl hi hp (by simp [Lease.live, hs])
    exact ⟨x, shedPass_ended _ _ _ _ _ hx he, he, hn⟩
  · next k =>
    obtain ⟨x, hx, hxi⟩ := shedPass_idle (h.map State.chosen) i gen (some term) ⟨l, hl, hi⟩
    refine lapsePassed_idle _ i gen term x hx hxi ?_ ?_
    · rw [setup_now (Happening.shedPass_setup (h.map State.chosen))]; exact hp
    · rw [not_or] at k
      have := k.1
      unfold State.liveAt at this
      rw [show (h.map State.chosen).shedPass.st.lease? i = some x from congrArg Slot.lease hx] at this
      simpa using this

/-! ### Command contexts -/

/-- The context found is the one that satisfies the test, where one alone does. -/
theorem findContext_unique {s : State} {t : TenantId} {p : Stage → Bool} {c : CtxId} {x : Context}
    (hx : s.context c = some x) (ht : x.tenant = t) (hp : p x.stage = true)
    (hu : ∀ e y, s.context e = some y → y.tenant = t → p y.stage = true → e = c) : s.findContext t p = some (c, x) := by
  unfold State.findContext
  rw [List.findSome?_eq_some_iff]
  obtain ⟨a, b, hab⟩ := List.append_of_mem (List.mem_finRange c)
  refine ⟨a, c, b, hab, ?_, ?_⟩
  · simp [hx, ht, hp]
  · intro e he
    split
    · next y hy =>
      split
      · next hh =>
        have := hu e y hy hh.1 hh.2
        subst this
        exfalso
        have hn := List.nodup_finRange 24
        rw [hab] at hn
        have := (List.nodup_append.mp hn).2.2 e he e (by simp)
        exact this rfl
      · rfl
    · rfl

/-- What a context found satisfies. -/
theorem findContext_some {s : State} {t : TenantId} {p : Stage → Bool} {c : CtxId} {x : Context} (h : s.findContext t p = some (c, x)) :
    s.context c = some x ∧ x.tenant = t ∧ p x.stage = true := by
  unfold State.findContext at h
  obtain ⟨d, -, hd⟩ := List.exists_of_findSome?_eq_some h
  split at hd
  · next y hy =>
    split at hd
    · next hp => cases hd; exact ⟨hy, hp.1, hp.2⟩
    · cases hd
  · cases hd

/-- A change of stage reaches every context of the tenant and no other. -/
theorem mapStages_context (s : State) (t : TenantId) (f : Stage → Stage) (c : CtxId) :
    (s.mapStages t f).context c = (s.context c).map fun x => if x.tenant = t then { x with stage := f x.stage } else x := by
  simp [State.mapStages, State.context]

theorem onlyRings_mapStages (s : State) (t : TenantId) (f : Stage → Stage) : OnlyRings s (s.mapStages t f) := rfl

theorem onlyRings_setWriter (s : State) (t : TenantId) (w : Option WriterAccess) : OnlyRings s (s.setWriter t w) := rfl

theorem onlyRings_breakTenant (s : State) (t : TenantId) : OnlyRings s (s.breakTenant t) :=
  (onlyRings_setTenant s t _).trans (onlyRings_mapStages _ _ _)

theorem onlyRings_endIntake (s : State) (t : TenantId) (c : CtxId) : OnlyRings s (s.endIntake t c) :=
  (onlyRings_freeContext s c).trans (onlyRings_setUnderWay _ _ _)

theorem onlyRings_dropContexts (s : State) (n : TenantId) : OnlyRings s (s.dropContexts n) := by
  unfold State.dropContexts
  simp only
  split
  · exact (onlyRings_freeContext _ _).trans ((onlyRings_mapStages _ _ _).trans (onlyRings_setTenant _ _ _))
  · exact ((onlyRings_mapStages _ _ _).trans (onlyRings_setTenant _ _ _))

theorem onlyRings_discardAll (q : List OutEntry) (h : Happening) : OnlyRings h.st (q.foldl Happening.discard h).st := by
  induction q generalizing h with
  | nil => exact .refl _
  | cons e q ih =>
    rw [List.foldl_cons]
    have d : OnlyRings h.st (h.discard e).st := by
      unfold Happening.discard
      split
      · exact onlyRings_freeContext _ _
      · exact .refl _
      · exact .refl _
    exact d.trans (ih _)

theorem onlyRings_answer (h : Happening) (c : CtxId) (a : Status) (d : Detail) (x : Option Handle)
    (n : Nat) : OnlyRings h.st (h.answer c a d x n).st := by
  unfold Happening.answer
  split
  · exact (onlyRings_setStage _ _ _).trans (onlyRings_setUnderWay _ _ _)
  · exact .refl _

/-! ### Ends of drains, teardowns and happenings -/

theorem settle_of_check (h : Happening) (a : h.rise = false) (b : h.check = true) : h.settle = h.endings.flush := by
  unfold Happening.settle
  simp [a, b]

/-- A drain whose last live lease is gone ends, and the waiting STOP_SERVICE finishes OK (R189). -/
theorem drainEnd_waiting (h : Happening) (r : DrainReason) (c : CtxId) (x : Context) (a : h.st.service = .draining r true)
    (b : h.st.anyLive = false)
   (f : ({ h.st with service := .configuring } : State).findContext admin Stage.isDraining = some (c, x)) :
   h.drainEnd = (h.map fun s => { s with service := .configuring }).reply c .ok := by
  unfold Happening.drainEnd
  rw [a]
  simp only [b]
  have e3 : (h.map fun s => ({ s with service := .configuring } : State)).st = { h.st with service := .configuring } := rfl
  rw [e3, f]
  rfl

/-- A drain with no waiting command ends in CONFIGURING (R189). -/
theorem drainEnd_alone (h : Happening) (r : DrainReason) (a : h.st.service = .draining r false) (b : h.st.anyLive = false) :
   h.drainEnd = (h.map fun s => { s with service := .configuring }) := by
  unfold Happening.drainEnd
  rw [a]
  simp only [b]
  rfl

theorem onlyRings_teardownEnd (h : Happening) (n : TenantId) : OnlyRings h.st (h.teardownEnd n).st := by
  unfold Happening.teardownEnd
  split
  · have a : OnlyRings h.st (h.map fun s => s.setTenant n { s.tenant n with state := .closed, desc := none }).st := onlyRings_setTenant _ _ _
    simp only
    split
    · exact a.trans (onlyRings_answer _ _ _ _ _ _)
    · exact a
  · exact .refl _

theorem onlyRings_teardowns (h : Happening) (ns : List TenantId) : OnlyRings h.st (ns.foldl Happening.teardownEnd h).st := by
  induction ns generalizing h with
  | nil => exact .refl _
  | cons n ns ih => rw [List.foldl_cons]; exact (onlyRings_teardownEnd h n).trans (ih _)

theorem onlyRings_completions (as : List (TenantId × Completion)) (s : State) : OnlyRings s (as.foldl
    (fun s a => s.postCompletion a.1 a.2) s) := by
  induction as generalizing s with
  | nil => exact .refl _
  | cons n ns ih => rw [List.foldl_cons]; exact (onlyRings_postCompletion _ _ _).trans (ih _)

/-- A marker added stands in the queue (R170). -/
theorem addMarker_any (x : Subject) (r : Reason) (q : List OutEntry) : (addMarker x r q).any (OutEntry.isMarker x) = true := by
  unfold addMarker
  split
  · next h =>
    simp only [List.any_map, List.any_eq_true] at h ⊢
    obtain ⟨e, he, hm⟩ := h
    exact ⟨e, he, by simp [Function.comp, hm]; simp [OutEntry.isMarker]⟩
  · simp [OutEntry.isMarker]

/-- A marker in any queue holds its slot (R18). -/
theorem marked_of_any (s : State) (t : TenantId) (h : Handle) (k : (s.tenant t).outbound.any (OutEntry.isMarker
    (.lease h)) = true) :
    s.marked h = true := by
  unfold State.marked
  rw [List.any_eq_true]
  exact ⟨t, List.mem_finRange t, k⟩

/-- A generation is never 0 (R1). -/
theorem nextGen_ne_zero (g : BitVec 12) : nextGen g ≠ 0 := by
  unfold nextGen
  split
  · decide
  · bv_omega

/-- The slots that a happening frees held no live lease, and nothing else changes (R18). -/
theorem freeEnded_all (is : List SlotId) (s : State) : let u := is.foldl State.freeEnded s
   u = { s with slots := u.slots } ∧ ∀ j, u.slot j = s.slot j ∨ (u.lease? j = none ∧ ∀ l, s.lease? j = some l → l.live = false) := by
  induction is generalizing s with
  | nil => exact ⟨rfl, fun j => Or.inl rfl⟩
  | cons i is ih =>
    intro u
    obtain ⟨a, b⟩ := ih (s.freeEnded i)
    have f : (s.freeEnded i) = { s with slots := (s.freeEnded i).slots } ∧ ∀ j, (s.freeEnded i).slot j = s.slot j ∨ ((s.freeEnded i).lease? j = none ∧ ∀ l, s.lease? j = some l → l.live = false) := by
      unfold State.freeEnded
      split
      · next l hl =>
        split
        · next hc =>
          refine ⟨rfl, ?_⟩
          intro j
          by_cases e : j = i
          · subst e
            right
            refine ⟨by unfold State.lease? State.setSlot State.slot; simp, ?_⟩
            intro x hx; rw [hl] at hx; cases hx; exact hc.1
          · left; unfold State.setSlot State.slot; simp [vget_vset, e]
        · exact ⟨rfl, fun j => Or.inl rfl⟩
      · exact ⟨rfl, fun j => Or.inl rfl⟩
    refine ⟨?_, ?_⟩
    · have gen : ∀ (w v : State), w = { v with slots := w.slots } → v = { s with slots := v.slots } → w = { s with slots := w.slots } := by
        intro w v a b; rw [a, b]
      exact gen _ _ a f.1
    · intro j
      rcases b j with b | ⟨b1, b2⟩
      · rcases f.2 j with g | ⟨g1, g2⟩
        · left; exact b.trans g
        · right
          refine ⟨?_, g2⟩
          show (u.slot j).lease = none
          have : u.slot j = (s.freeEnded i).slot j := b
          rw [this]; exact g1
      · rcases f.2 j with g | ⟨g1, g2⟩
        · right; refine ⟨b1, ?_⟩
          intro l hl
          apply b2
          unfold State.lease? at hl ⊢; rw [g]; exact hl
        · right; exact ⟨b1, g2⟩

/-- The queues at the end of a happening: no live lease, no entry and no service state changes there. -/
theorem flush_effect (h : Happening) : (h.flush).queue = h.st.queue ∧ h.flush.service = h.st.service ∧
   (∀ j l, h.flush.lease? j = some l → h.st.lease? j = some l) ∧ h.flush.anyLive = h.st.anyLive := by
  unfold Happening.flush
  simp only
  set s1 := h.answers.foldl (fun s a => s.postCompletion a.1 a.2) h.st with hs1
  have o : OnlyRings h.st (s1.postAll h.marks) := (onlyRings_completions h.answers h.st).trans (onlyRings_postAll _ _)
  set s2 := s1.postAll h.marks
  obtain ⟨a, b⟩ := freeEnded_all h.loose s2
  set u := h.loose.foldl State.freeEnded s2
  have h1 : ∀ j l, u.lease? j = some l → s2.lease? j = some l := by
    intro j l hl
    rcases b j with b | ⟨b1, b2⟩
    · unfold State.lease? at hl ⊢; rw [b] at hl; exact hl
    · rw [hl] at b1; cases b1
  refine ⟨?_, ?_, ?_, ?_⟩
  · have : u.queue = s2.queue := by rw [a]
    exact this.trans o.queue
  · have : u.service = s2.service := by rw [a]
    exact this.trans o.service
  · intro j l hl
    rw [← o.lease? j]; exact h1 j l hl
  · rw [Bool.eq_iff_iff, anyLive_iff, anyLive_iff]
    constructor
    · rintro ⟨j, l, hl, hv⟩
      exact ⟨j, l, by rw [← o.lease? j]; exact h1 j l hl, hv⟩
    · rintro ⟨j, l, hl, hv⟩
      rw [← o.lease? j] at hl
      rcases b j with b | ⟨b1, b2⟩
      · refine ⟨j, l, ?_, hv⟩
        show (u.slot j).lease = _
        rw [b]; exact hl
      · have := b2 l hl; rw [hv] at this; cases this

end Sys2Proof.Machine
end

