-- ==== Sys2Proof/WellFormed.lean ====
section
/-! DEFINITION. What the type of `Instr` does not say of a happening's operands. -/

namespace Sys2Proof

/-- The offsets in the five register pages at which a write has an effect (R198): CONTROL's lower half, DESCRIPTOR_BASE's
two halves, and the lower half of each TENANT_SIGNAL. -/
def effectiveOffsets : List Nat := [0x010, 0x018, 0x01C, 0x1000, 0x2000, 0x3000, 0x4000]

/-- The operands of a happening have the sizes and values that the row can have: a submission record is 64 bytes (R161), a
descriptor 32 bytes (R155), an unknown action's code names no action (R183, R200), and an ignored write lies in the window of
five pages at an offset where a write has no effect, or is a TENANT_SIGNAL write with neither bit set (R175, R199). -/
def Instr.wellFormed : Instr → Bool
  | .headReadEnd _ (some bytes) => bytes.length == 64
  | .descriptorReadEnd _ (some bytes) => bytes.length == 32
  | .unknownAction code => code.toNat == 0 || decide (4 < code.toNat)
  | .ignoredRegisterWrite offset value =>
      decide (offset < 0x5000) && offset % 4 == 0 &&
        (!effectiveOffsets.contains offset ||
          (decide (0x1000 ≤ offset) && !value.getLsbD 0 && !value.getLsbD 1))
  | _ => true

end Sys2Proof
end

