-- ==== Sys2Proof/Tests/Slice0.lean ====
section
/-! SUPPORT. Tests. The expected values come from the spec's worked examples and tables, named beside each test, or from hand
calculation by the rule named; and a witness for every statement that has hypotheses. -/

namespace Sys2Proof.Tests

open Sys2Proof.Machine

/-! ### Well-formedness: a term that each check refuses -/

theorem test_wellFormed_record_size : (Instr.headReadEnd 1 (some (zeros 63))).wellFormed = false := by decide
theorem test_wellFormed_descriptor_size : (Instr.descriptorReadEnd .control (some (zeros 33))).wellFormed = false := by decide
theorem test_wellFormed_known_action : (Instr.unknownAction 4).wellFormed = false := by decide
theorem test_wellFormed_effective_offset : (Instr.ignoredRegisterWrite 0x018 0).wellFormed = false := by decide
theorem test_wellFormed_signal_bit : (Instr.ignoredRegisterWrite 0x3000 2).wellFormed = false := by decide
theorem test_wellFormed_outside_window : (Instr.ignoredRegisterWrite 0x5000 0).wellFormed = false := by decide
theorem test_wellFormed_misaligned : (Instr.ignoredRegisterWrite 0x002 0).wellFormed = false := by decide
theorem test_wellFormed_accepts :
    (Instr.unknownAction 5).wellFormed = true ∧ (Instr.ignoredRegisterWrite 0x3000 4).wellFormed = true ∧
      (Instr.headReadEnd 1 (some (zeros 64))).wellFormed = true := by decide

/-! ### Register writes (R198, R199) and table words -/

theorem test_table_words_spell_nothing : decodeTableWord 32 0x12345678 = none := rfl
theorem test_control_codes :
    decodeRegisterWrite 0x010 .w32 1 = some .start ∧ decodeRegisterWrite 0x010 .w64 2 = some .emergencyStop ∧
      decodeRegisterWrite 0x010 .w32 0xFFFFFF03 = some .softReset ∧ decodeRegisterWrite 0x010 .w32 4 = some .adminReopen ∧
      decodeRegisterWrite 0x010 .w32 9 = some (.unknownAction 9) ∧
      decodeRegisterWrite 0x014 .w32 1 = some (.ignoredRegisterWrite 0x014 1) := by decide
theorem test_base_halves :
    decodeRegisterWrite 0x018 .w64 0x1122334455667788 = some (.descriptorBaseWrite (.whole 0x1122334455667788)) ∧
      decodeRegisterWrite 0x018 .w32 0x55667788 = some (.descriptorBaseWrite (.lower 0x55667788)) ∧
      decodeRegisterWrite 0x01C .w32 0x11223344 = some (.descriptorBaseWrite (.upper 0x11223344)) := by decide
theorem test_signal_bits :
    decodeRegisterWrite 0x2000 .w32 1 = some (.notify 1 false) ∧ decodeRegisterWrite 0x4000 .w64 3 = some (.notify 3 true) ∧
      decodeRegisterWrite 0x1000 .w32 2 = some (.ack 0) ∧
      decodeRegisterWrite 0x1000 .w32 4 = some (.ignoredRegisterWrite 0x1000 4) ∧
      decodeRegisterWrite 0x1004 .w32 1 = some (.ignoredRegisterWrite 0x1004 1) := by decide
theorem test_no_register_access :
    decodeRegisterWrite 0x5000 .w32 1 = none ∧ decodeRegisterWrite 0x012 .w32 1 = none ∧
      decodeRegisterWrite 0x014 .w64 1 = none := by decide

/-! ### Reset, and the step on an empty queue -/

theorem test_reset_is_power_on : exec (.powerOn false false false) State.reset = .next State.reset := rfl
theorem test_idle_step_passes_one_ms : step State.reset = .next { State.reset with now := 1 } := rfl

/-! ### Small states -/

/-- The next state, where a row's meaning gives one. -/
def after (i : Instr) (s : State) : State :=
  match exec i s with
  | .next u => u
  | _ => State.reset

/-- A descriptor for the tests' tenants. -/
def ring : Descriptor := { subBase := 0x10000, compBase := 0x20000, subSize := 8, compSize := 8, interrupt := true }

/-- An OPEN tenant with nothing going on. -/
def opened : Tenant := { Tenant.powerOn with state := .isOpen, desc := some ring }

/-- A part in SERVING with four OPEN tenants. -/
def serving : State := { State.reset with service := .serving, tenants := Vector.replicate 4 opened }

/-- A command of a tenant, taken in context 0 with tag 0x0042. -/
def asks (t : TenantId) (cmd : Command) (s : State) : State :=
  (s.setContext 0 (some { tenant := t, record := cmd.write 0x0042, tag := some 0x0042, stage := .taken })).setTenant t
    { s.tenant t with underWay := true, inFlight := 1 }

/-- A slot that holds a lease. -/
def withLease (i : SlotId) (gen : BitVec 12) (l : Lease) (s : State) : State := s.setSlot i { gen := gen, lease := some l }

/-- A rail in a state, as a member of a lease. -/
def withRail (r : RailId) (st : RailState) (v : Nat) (h : Option Handle) (s : State) : State :=
  s.setRail r { state := st, drive := .held v, currentLimit := 1000, lease := h }

def member (r : RailId) (voltage current : Nat) : Member :=
  { rail := r, tier := 0, auto := false, voltage := voltage, current := current, stepDelay := 10, charge := voltage * current / 1000
    short := false }

def lease (st : LeaseState) (t : TenantId) (cls : Nat) (resume : Bool) (members : List Member) : Lease :=
  { state := st, tenant := t, cls := cls, resume := resume, short := false, members := members, charge := chargeOf members
    term := none, count := 0 }

/-- The completion in a tenant's outbound queue: status, handle and charge. -/
def answer (t : TenantId) (s : State) : Option (Status × Nat × Nat) :=
  (s.tenant t).outbound.findSome? fun e =>
    match e with
    | .completion c => some (c.status, handleField c.handle, c.charge)
    | .marker _ _ => none

/-! ### Automatic selection on rail 5 (02_tiers_and_claims.md, worked example) -/

def railLimits : RailConfig :=
  { configured := true, floor := 3000, ceiling := 12000, currentCeiling := 8000, rampRate := 10, allowance := 100
    discharge := 200, retryLimit := 2, backoffBase := 400 }

/-- The board of the example: tenant 2's rails 4 and 5, the budget, slots 0 to 3 held, slot 4 in generation 3. -/
def board : State :=
  let s := { serving with
    feeds := #v[{ capacity := 120000, qualify := 100, state := .present }, { capacity := 100000, qualify := 100, state := .present },
      { capacity := 60000, qualify := 100, state := .absent }]
    margin := 20000, chargedTotal := 150000, committedTotal := 150000
    railConfig := Vector.replicate 12 railLimits }
  let s := s.setAccount 2 { quota := 80000, maxClass := 2, charged := 30000 }
  let s := (s.setTierList 4 [{ kind := .ranged, vmin := 3000, vmax := 5000, imax := 3000, cap := 0 }]).setTierList 5
    [{ kind := .fixed, vmin := 12000, vmax := 12000, imax := 4000, cap := 0 },
      { kind := .ranged, vmin := 5000, vmax := 9000, imax := 5000, cap := 0 },
      { kind := .capped, vmin := 3300, vmax := 12000, imax := 8000, cap := 30000 },
      { kind := .fixed, vmin := 5000, vmax := 5000, imax := 2000, cap := 0 }]
  let s := (s.setOwned 4 { owner := some 2, offer := none }).setOwned 5 { owner := some 2, offer := none }
  let s := [0, 1, 2, 3].foldl (fun s i => withLease i 1 (lease (.ended .released) 1 0 false []) s) s
  s.setSlot 4 { gen := 3, lease := none }

/-- The CLAIM of the example, with its minimum power and ALLOW_SHORT. -/
def boardClaim (minPower : Nat) (allowShort : Bool) : Command :=
  .claim
    { cls := 1, resume := false, noWait := false, allowShort := allowShort, term := 0, wait := 0, count := 2
      specs := [.explicit 4 0 10 3300 3000, .auto 5 10 0 5000 12000 minPower 4000] }

/-- Case 1: tier 1 at 9,000 mV and 4,000 mA; GRANTED as handle 52 at 45,900 mW. -/
theorem test_claim_greedy_choice :
    let u := after (.claim 2) (asks 2 (boardClaim 200 false) board)
    answer 2 u = some (.granted, 52, 45900) ∧ u.chargedTotal = 195900 ∧ (u.account 2).charged = 75900 ∧
      (u.lease? 4).map (fun l => l.members.map fun m => (m.tier, m.voltage, m.current, m.charge)) =
        some [(0, 3300, 3000, 9900), (1, 9000, 4000, 36000)] := by decide

/-- Case 2: behind a RESTORE entry the choice is tier 0; DEFERRED at 57,900 mW, nothing charged. -/
theorem test_claim_behind_restore :
    let u := after (.claim 2) (asks 2 (boardClaim 200 false)
      { board with queue := [{ handle := { slot := 9, gen := 1 }, kind := .restore }] })
    answer 2 u = some (.deferred, 52, 57900) ∧ u.chargedTotal = 150000 ∧ (u.account 2).charged = 30000 ∧
      u.queue.length = 2 := by decide

/-- Case 3: no candidate reaches 60,000 mW; refused with detail 1, or short with ALLOW_SHORT at 45,900 mW. -/
theorem test_claim_short :
    answer 2 (after (.claim 2) (asks 2 (boardClaim 600 false) board)) = some (.noSuitableTier, 0, 0) ∧
      answer 2 (after (.claim 2) (asks 2 (boardClaim 600 true) board)) = some (.granted, 52, 45900) ∧
      ((after (.claim 2) (asks 2 (boardClaim 600 true) board)).lease? 4).map Lease.short = some true := by decide

/-! ### Lowering the voltage of a running lease (02_tiers_and_claims.md, worked example) -/

/-- Lease 52 of case 1, ACTIVE on rails 4 and 5. -/
def running : State :=
  let h : Handle := { slot := 4, gen := 3 }
  let s := { board with chargedTotal := 195900, committedTotal := 195900, grantOrder := [h] }
  let s := s.setAccount 2 { quota := 80000, maxClass := 2, charged := 75900 }
  withRail 4 .on 3300 (some h) (withRail 5 .on 9000 (some h) (withLease 4 3
    { lease .active 2 1 false [member 4 3300 3000, { member 5 9000 4000 with tier := 1, auto := true }] with count := 1 } s))

/-- The ADJUST of the example carried out. -/
def lowered : State :=
  after (.adjust 2) (asks 2 (.adjust 52 2 [.explicit 4 0 0 3300 3000, .explicit 5 1 0 6000 4000]) running)

/-- ADJUSTING at the old charge with the new charge pending; the rail slews from 9,000 to 6,000 mV. -/
theorem test_adjust_lowers_voltage :
    let u := lowered
    answer 2 u = some (.ok, 52, 33900) ∧
      u.chargedTotal = 195900 ∧ (u.account 2).charged = 75900 ∧
      (u.lease? 4).map (fun l => (l.charge, l.state.code)) = some (45900, 4) ∧
      (u.rail 5).drive = .moving 9000 6000 10 0 := by decide

/-- The slew's end: ACTIVE at 33,900 mW, with 12,000 mW credited. -/
theorem test_slew_end_credits :
    let u := after (.slewDeadline 5 true) { lowered with now := 400 }
    (u.lease? 4).map (fun l => (l.charge, l.state.code)) = some (33900, 3) ∧ u.chargedTotal = 183900 ∧
      (u.account 2).charged = 63900 := by decide

/-! ### Losing one of three feeds (03_the_power_budget_and_shedding.md, worked sequence) -/

def charged (c : Nat) (l : Lease) : Lease := { l with charge := c }

/-- The board of the sequence: leases 17 to 22 in slots 1 to 6. -/
def threeFeeds : State :=
  let s := { serving with
    feeds := #v[{ capacity := 200000, qualify := 100, state := .present }, { capacity := 150000, qualify := 100, state := .present },
      { capacity := 100000, qualify := 100, state := .present }]
    margin := 30000, chargedTotal := 390000, committedTotal := 350000
    grantOrder := [1, 2, 3, 4, 5].map fun i => { slot := i, gen := 1 } }
  let s := ((s.setAccount 1 { quota := 200000, maxClass := 3, charged := 140000 }).setAccount 2
    { quota := 200000, maxClass := 3, charged := 150000 }).setAccount 3 { quota := 150000, maxClass := 3, charged := 100000 }
  let s := withLease 1 1 (charged 90000 (lease .active 1 2 false [member 1 5000 1])) s
  let s := withLease 2 1 (charged 80000 (lease .active 2 1 true [member 2 5000 1])) s
  let s := withLease 3 1 (charged 60000 (lease .active 3 1 false [member 3 5000 1])) s
  let s := withLease 4 1 (charged 50000 (lease (.retryWait 900) 1 0 true [{ member 4 5000 1 with charge := 50000 }])) s
  let s := withLease 5 1 (charged 70000 (lease (.starting (.rising 0)) 2 1 false [member 5 5000 1])) s
  withRail 5 (.rising 700) 1000 (some { slot := 5, gen := 1 }) s

/-- The victims are 20, SUSPENDED, then 21, STOPPING; committed 230,000 and charged 340,000 mW. -/
theorem test_feed_loss_sheds :
    let u := after (.senseLineFall 1) threeFeeds
    u.available = 270000 ∧ u.committedTotal = 230000 ∧ u.chargedTotal = 340000 ∧ (u.account 1).charged = 90000 ∧
      u.grantOrder.map handleWord = [17, 18, 19] ∧ (u.lease? 4).map (fun l => l.state) = some .suspended ∧
      (u.lease? 5).map (fun l => l.state.code) = some 6 ∧ u.queue.map (fun e => handleWord e.handle) = [20] := by decide

/-! ### Three faults and a lockout (06_rail_faults_retry_and_lockout.md, worked sequence) -/

/-- Lease 99 ACTIVE with count 1 on rails 6 and 8; the counts of rail 8 and the clock as the row of the table has them. -/
def lease99 (now : Nat) (count : Nat) (changes : BitVec 8) : State :=
  let h : Handle := { slot := 3, gen := 6 }
  let s := { serving with
    now := now, chargedTotal := 40000, committedTotal := 40000, grantOrder := [h]
    feeds := Vector.replicate 3 { capacity := 40000, qualify := 100, state := .present }
    railConfig := (Vector.replicate 12 railLimits).set 8 { railLimits with backoffBase := 500 } }
  let s := (s.setAccount 2 { quota := 80000, maxClass := 3, charged := 40000 }).setFaultRecord 8
    { count := count, last := none, stable := none }
  let s := (s.setOwned 6 { owner := some 2, offer := none }).setOwned 8 { owner := some 2, offer := none }
  withRail 6 .on 5000 (some h) (withRail 8 .on 5000 (some h) (withLease 3 6
    { charged 40000 (lease .active 2 1 false [member 6 5000 4000, member 8 5000 4000]) with count := changes } s))

theorem test_fault_stops_sequenced :
    let u := after (.stageFault 8 .overcurrent) (lease99 0 0 1)
    (u.rail 8).state = .falling 200 ∧ (u.rail 6).state = .on ∧ u.faultRecord 8 = { count := 1, last := some .overcurrent, stable := none } ∧
      (u.lease? 3).map (fun l => (l.state, l.count)) =
        some (.stopping
          { cause := .fault, mode := .sequenced, faulted := [8], firstFault := some .overcurrent, suspendMark := false
            inTurn := some 1 }, 2) := by decide

/-- The stop completes at 100 with rail 8 at count 1: RETRY_WAIT until 600, count 3. -/
theorem test_retry_backoff :
    let u := after (.stageFault 8 .overcurrent) (lease99 0 0 1)
    let v := after (.lowReached 6) { after (.lowReached 8) { u with now := 40 } with now := 100 }
    (v.rail 8).state = .off ∧ (v.lease? 3).map (fun l => (l.state, l.count)) = some (.retryWait 600, 3) := by decide

/-- The third fault: rail 8 is LOCKED at 3 above 2, and the lease ends FAULT_LOCKOUT with 40,000 mW credited, count 11. -/
theorem test_lockout :
    let u := after (.pgFall 8) (lease99 3300 2 9)
    let v := after (.lowReached 6) { after (.lowReached 8) { u with now := 3350 } with now := 3410 }
    (v.rail 8).state = .locked ∧ (v.rail 6).state = .off ∧ v.chargedTotal = 0 ∧
      (v.lease? 3).map (fun l => (l.state, l.count)) = some (.ended .faultLockout, 11) := by decide

/-- R131's example: a base of 10 ms with a count of 7 gives 640 ms. -/
theorem test_backoff_example :
    let s := (lease99 0 6 1).setConfig 8 { railLimits with retryLimit := 15, backoffBase := 10 }
    let u := after (.lowReached 6) (after (.lowReached 8) (after (.stageFault 8 .overcurrent) s))
    (u.lease? 3).map (fun l => l.state) = some (.retryWait 640) := by decide

/-! ### Handing a running load to another tenant (07_rail_ownership_and_offers.md, worked sequence) -/

/-- Lease 39 on rail 10, offered by tenant 1 to tenant 3; tenant 3 charged as given. -/
def handover (charged3 : Nat) : State :=
  let h : Handle := { slot := 7, gen := 2 }
  let s := (serving.setAccount 1 { quota := 90000, maxClass := 3, charged := 65000 }).setAccount 3
    { quota := 100000, maxClass := 3, charged := charged3 }
  let s := s.setOwned 10 { owner := some 1, offer := some { offerer := 1, target := 3, deadline := 20000 } }
  withRail 10 .on 5000 (some h) (withLease 7 2 { lease .active 1 1 false [member 10 5000 5000] with count := 1 } s)

/-- 80,000 + 25,000 is above the quota: refused QUOTA, and the offer stands. -/
theorem test_accept_over_quota :
    let u := after (.acceptRail 3) (asks 3 (.acceptRail 10) (handover 80000))
    answer 3 u = some (.quota, 0, 0) ∧ (u.owned 10).owner = some 1 := by decide

/-- 65,000 + 25,000 = 90,000: accepted, with handle 39 and charge 25,000, and the markers of the table in its order. -/
theorem test_accept_moves_lease :
    let u := after (.acceptRail 3) (asks 3 (.acceptRail 10) (handover 65000))
    (u.owned 10) = { owner := some 3, offer := none } ∧ (u.account 1).charged = 40000 ∧ (u.account 3).charged = 90000 ∧
      (u.lease? 7).map (fun l => (l.tenant, l.count)) = some (3, 2) ∧
      (u.tenant 1).outbound =
        [.marker (.lease { slot := 7, gen := 2 }) .transferred, .marker (.rail 10) .accepted] ∧
      (u.tenant 3).outbound.map (fun e => e.isCompletion) = [true, false, false] := by decide

/-! ### Records and registers (10_record_and_register_formats.md) -/

/-- The completion of the worked example, byte for byte. -/
theorem test_completion_record :
    (({ ctx := 0, tag := 0x0042, kind := 0x01, status := .granted, detail := .none, handle := some { slot := 4, gen := 3 }
        charge := 45900 } : Completion)).record =
      [1, 1, 0x42, 0x00, 0x01, 0x01, 0xFF, 0, 52, 0, 0, 0, 0x4C, 0xB3, 0x00, 0x00] := by decide

/-- The notice of the worked example: type 2, handle 52, reason 3, state 3, end reason 0, count 1, tenant 2, charge 45,900. -/
theorem test_lease_notice :
    running.leaseNotice { slot := 4, gen := 3 } .active = [1, 2, 52, 0, 3, 3, 0, 1, 2, 0, 0, 0, 0x4C, 0xB3, 0x00, 0x00] := by decide

/-- Member entry 1 of the report: rail 5 with bit 4, tier 1, 9,000 mV (0x2328), 4,000 mA (0x0FA0), 36,000 mW (0x8CA0). -/
theorem test_lease_report_member :
    (running.lease? 4).map (fun l => ((leaseReport 0 { slot := 4, gen := 3 } l).drop 34).take 10) =
      some [0x15, 1, 10, 0x28, 0x23, 0xA0, 0x0F, 0xA0, 0x8C, 0x00] := by decide

/-- A CLAIM record written out by R195: class 1, ALLOW_SHORT, term 0x0201 s, wait 5 s, two members. -/
theorem test_claim_record :
    Command.read
      ([1, 0x01, 0x42, 0, 0, 0, 0, 0, 1, 4, 0x01, 0x02, 5, 0, 2, 0,
        4, 0, 10, 0, 0xE4, 0x0C, 0xB8, 0x0B, 0, 0, 0, 0, 5, 0xFF, 10, 0, 0x88, 0x13, 0xE0, 0x2E, 200, 0, 0xA0, 0x0F] ++ zeros 24) =
      some (.claim
        { cls := 1, resume := false, noWait := false, allowShort := true, term := 0x0201, wait := 5, count := 2
          specs := [.explicit 4 0 10 3300 3000, .auto 5 10 0 5000 12000 200 4000] }) := by decide

/-- A SET_TIERS record by R195: rail 5, one CAPPED tier of 3,300 to 12,000 mV, 8,000 mA, cap 30,000 (0x007530, kind 2 at bit 22). -/
theorem test_set_tiers_record :
    Command.read ([1, 0x20, 0, 0, 0, 0, 0, 0, 5, 1, 0xE4, 0x0C, 0xE0, 0x2E, 0x40, 0x1F, 0x30, 0x75, 0x80] ++ zeros 45) =
      some (.setTiers 5 1 [{ vmin := 3300, vmax := 12000, imax := 8000, cap := 30000, kind := 2 }]) := by decide

theorem test_unknown_kind : Command.read ([1, 0x06] ++ zeros 62) = none := by decide

/-- STATUS by R198: SERVING, tenant 2 BROKEN, last action START, DONE. -/
theorem test_status_word :
    ({ serving with lastAction := .start, outcome := .done, tenants := serving.tenants.set 2 { opened with state := .broken } }
      : State).statusWord = 0x21042 := by decide

/-- TENANT_SIGNAL by R198: OPEN, interrupt pending, stalled, 12 in flight. -/
theorem test_signal_word :
    ({ serving with tenants := serving.tenants.set 1 { opened with intPending := true, stalled := true, inFlight := 12 } }
      : State).signalWord 1 = 0xC0D := by decide

/-- The largest charge one member can have (00_scope.md 1.6). -/
theorem test_largest_charge :
    grantExplicit [{ kind := .fixed, vmin := 48000, vmax := 48000, imax := 40000, cap := 0 }] 0 0 40000 =
      some (0, 48000, 40000, 1920000) := by decide

/-! ### Rings, registers and service: one step each -/

/-- A head slot read empty (R161): scan-pending is cleared and the context freed. -/
theorem test_head_empty :
    let s := (serving.setTenant 1 { opened with scanPending := true, underWay := true, inFlight := 1 }).setContext 5
      (some { tenant := 1, record := [], tag := none, stage := .headRead 0x10000 false .live })
    let u := after (.headReadEnd 1 (some (zeros 64))) s
    u.tenant 1 = opened ∧ u.context 5 = none := by decide

/-- A full completion ring (R173): stalled, looked at again 10 ms later. -/
theorem test_tail_full :
    let s := { serving.setTenant 1 { opened with writer := some (.tailRead 0x20000 .live) } with now := 7 }
    (after (.tailReadEnd 1 (some 1)) s).tenant 1 = { opened with stalled := true, recheck := some 17 } := by decide

/-- The writer's third step (R172, R174): the tail wraps after slot 7, and interrupt pending is set. -/
theorem test_tail_wraps :
    let s := serving.setTenant 1 { opened with tail := 7, writer := some (.recordWrite 0x20070 (zeros 16) none .live) }
    (after (.recordWriteEnd 1 .done) s).tenant 1 = { opened with tail := 0, intPending := true } := by decide

/-- START reads tenant 0's descriptor at DESCRIPTOR_BASE (R156, R184); a soft reset in IDLE is taken and records itself (R192). -/
theorem test_start_reads :
    (after .start { State.reset with descriptorBase := 0x1000 }).controlRead = some (.start 0x1000) ∧
      (after .softReset State.reset).lastAction = .softReset ∧ (after .softReset State.reset).outcome = .done := by decide

/-- Tenant 3's descriptor lies at DESCRIPTOR_BASE + 96 (R155). -/
theorem test_open_address :
    ((after .openTenant (asks 0 (.openTenant 3)
      { serving with tenants := serving.tenants.set 3 Tenant.powerOn, descriptorBase := 0x1000 })).context 0).map Context.stage =
      some (.openRead 3 0x1060) := by decide

/-- A descriptor by R198: submission ring at 0x10000, completion ring at 0x20000, 8 slots each, valid, interrupts enabled. -/
def descriptorBytes : List Byte :=
  [0, 0, 1, 0, 0, 0, 0, 0, 0, 0, 2, 0, 0, 0, 0, 0, 8, 0, 8, 0, 3] ++ zeros 11

theorem test_descriptor : judgeDescriptor descriptorBytes = some ring := by decide
/-- Rings that touch share no byte; rings one slot closer do (R155). -/
theorem test_descriptor_overlap :
    (judgeDescriptor ([0, 0, 1, 0, 0, 0, 0, 0, 0, 2, 1, 0, 0, 0, 0, 0, 8, 0, 8, 0, 1] ++ zeros 11)).isSome = true ∧
      judgeDescriptor ([0, 0, 1, 0, 0, 0, 0, 0, 0xF0, 1, 1, 0, 0, 0, 0, 0, 8, 0, 8, 0, 1] ++ zeros 11) = none := by decide

/-! ### Witnesses: states and operands that meet the hypotheses of the statements -/

/-- Handle 114 of 01_leases.md's worked sequence. -/
def h114 : Handle := { slot := 2, gen := 7 }

/-- A lease of tenant 1 on rail 3 with handle 114, in a state, its rail in a state; feed 0 covers 36,000 mW. -/
def one (st : LeaseState) (rs : RailState) : State :=
  let s := { serving with
    feeds := serving.feeds.set 0 { capacity := 36000, qualify := 100, state := .present }
    chargedTotal := 30000, committedTotal := 30000, grantOrder := [h114], railConfig := Vector.replicate 12 railLimits }
  let s := (s.setAccount 1 { quota := 36000, maxClass := 3, charged := 30000 }).setOwned 3 { owner := some 1, offer := none }
  let s := s.setTierList 3 [{ kind := .ranged, vmin := 5000, vmax := 12000, imax := 3000, cap := 0 }]
  withRail 3 rs 12000 (some h114) (withLease 2 7 (lease st 1 1 false [member 3 12000 2500]) s)

/-- The lease of `one`. -/
def l114 (st : LeaseState) : Lease := lease st 1 1 false [member 3 12000 2500]

/-- A lease of two members: rail 3, and rail 4 next. -/
def l2 (st : LeaseState) : Lease := lease st 1 1 false [{ member 3 12000 2500 with stepDelay := 0 }, member 4 5000 100]

/-- That lease with handle 114, rail 3 ON. -/
def two (st : LeaseState) : State := withLease 2 7 (l2 st) (one st .on)

/-- A stop record. -/
def stopFor (cause : StopCause) : StopRecord :=
  { cause := cause, mode := .sequenced, faulted := [], firstFault := none, suspendMark := false, inTurn := some 0 }

def oneClaim : ClaimArgs :=
  { cls := 2, resume := false, noWait := false, allowShort := false, term := 65535, wait := 600, count := 1
    specs := [.explicit 4 0 255 3300 3000] }

theorem witness_StepKeepsRanges : ConfigInv threeFeeds ∧ step threeFeeds = .next { threeFeeds with now := 1 } :=
  ⟨⟨by decide, by decide, by decide, by decide, by decide, by decide, by decide, by decide⟩, rfl⟩

theorem witness_StepKeepsTiersWithinLimits : TierInv board ∧ step board = .next { board with now := 1 } :=
  ⟨by unfold TierInv; decide, rfl⟩

theorem witness_StepKeepsOfferLaw : OfferInv (handover 0) ∧ step (handover 0) = .next { handover 0 with now := 1 } := by
  refine ⟨?_, rfl⟩
  intro r o h
  by_cases e : r = 10
  · subst e
    have : o = { offerer := 1, target := 3, deadline := 20000 } := Option.some.inj (h.symm.trans (by decide))
    subst this
    decide
  · have : ∀ q : RailId, q ≠ 10 → ((handover 0).owned q).offer = none := by decide
    rw [this r e] at h
    cases h

/-- A tenant with a completion and a marker in its queue. -/
def queued : State :=
  serving.setTenant 1
    { opened with
      outbound :=
        [.marker (.lease h114) .active,
          .completion { ctx := 0, tag := 0, kind := 3, status := .ok, detail := .none, handle := none, charge := 0 }] }

theorem witness_StepKeepsOneMarkerPerSubject : MarkerInv queued ∧ step queued = .next { queued with now := 1 } :=
  ⟨by unfold MarkerInv; decide, rfl⟩

/-- Eight entries, a RESTORE before seven CLAIMs at the greatest pass count. -/
def fullQueue : State :=
  { serving with
    queue := { handle := h114, kind := .restore } :: List.replicate 7 { handle := { slot := 3, gen := 1 }, kind := .claim 9 15 } }

theorem witness_StepKeepsQueueForm : QueueInv fullQueue ∧ step fullQueue = .next { fullQueue with now := 1 } :=
  ⟨by unfold QueueInv; decide, rfl⟩

theorem witness_RecordsReadBack : (boardClaim 65535 true).fits = true ∧ (Command.queryLease 65535 (2 ^ 64 - 64)).fits = true := by
  decide

theorem witness_ClaimOfOneMemberIsGranted :
    let s := asks 2 (.claim oneClaim) board
    s.Holds 2 0 (.claim oneClaim) ∧ s.service = .serving ∧ oneClaim.cls ≤ (s.account 2).maxClass ∧ oneClaim.wait ≤ 600 ∧
      (s.config 4).configured = true ∧ (s.owned 4).owner = some 2 ∧ (s.rail 4).lease = none ∧ (s.rail 4).state = .off ∧
      grantExplicit (s.tierList 4) 0 3300 3000 = some (0, 3300, 3000, 9900) ∧ s.freeSlot = some 4 ∧ s.anyBlocking = false ∧
      s.fits 2 9900 = true :=
  ⟨⟨by decide, by decide⟩, by decide⟩

theorem witness_ClaimOfOneMemberIsDeferred :
    let s := asks 2 (.claim oneClaim) { board with queue := List.replicate 7 { handle := { slot := 9, gen := 1 }, kind := .restore } }
    s.Holds 2 0 (.claim oneClaim) ∧ s.service = .serving ∧ oneClaim.cls ≤ (s.account 2).maxClass ∧ oneClaim.wait ≤ 600 ∧
      (s.config 4).configured = true ∧ (s.owned 4).owner = some 2 ∧ (s.rail 4).lease = none ∧ (s.rail 4).state = .off ∧
      grantExplicit (s.tierList 4) 0 3300 3000 = some (0, 3300, 3000, 9900) ∧ s.freeSlot = some 4 ∧ s.anyBlocking = true ∧
      s.neverFits 2 9900 = false ∧ oneClaim.noWait = false ∧ s.queue.length < 8 :=
  ⟨⟨by decide, by decide⟩, by decide⟩

theorem witness_ClaimOfOneMemberIsDeferred_no_room :
    let s := asks 2 (.claim oneClaim) { board with chargedTotal := 190101 }
    s.Holds 2 0 (.claim oneClaim) ∧ s.anyBlocking = false ∧ s.fits 2 9900 = false ∧ s.neverFits 2 9900 = false ∧
      s.freeSlot = some 4 ∧ s.queue.length < 8 :=
  ⟨⟨by decide, by decide⟩, by decide⟩

theorem witness_AdjustOfCurrentIsImmediate :
    let s := asks 1 (.adjust 114 1 [.explicit 3 0 0 12000 3000]) (one .active .on)
    s.Holds 1 0 (.adjust 114 1 [.explicit 3 0 0 12000 3000]) ∧ s.service = .serving ∧
      s.liveLease (handleOfWord 114) = some (l114 .active) ∧
      grantExplicit (s.tierList 3) 0 12000 3000 = some (0, 12000, 3000, 36000) ∧ s.fits 1 (36000 - 30000) = true :=
  ⟨⟨by decide, by decide⟩, by decide⟩

theorem witness_AdjustOfVoltageSlews :
    let s := asks 1 (.adjust 114 1 [.explicit 3 0 0 5000 2500]) (one .active .on)
    s.Holds 1 0 (.adjust 114 1 [.explicit 3 0 0 5000 2500]) ∧ s.service = .serving ∧
      s.liveLease (handleOfWord 114) = some (l114 .active) ∧ (s.rail 3).state = .on ∧ (s.rail 3).drive = .held 12000 ∧
      grantExplicit (s.tierList 3) 0 5000 2500 = some (0, 5000, 2500, 12500) :=
  ⟨⟨by decide, by decide⟩, by decide⟩

theorem witness_ReleaseAndRevokeEndWaitingLeases :
    let s := asks 1 (.release 114) (one .waiting .off)
    let v := asks 0 (.revoke 114) (one .suspended .off)
    s.Holds 1 0 (.release 114) ∧ s.Steady ∧ s.liveLease (handleOfWord 114) = some (l114 .waiting) ∧ (s.tenant 1).hears = true ∧
      v.Holds 0 0 (.revoke 114) ∧ v.Steady ∧ v.liveLease (handleOfWord 114) = some (l114 .suspended) ∧
      (v.tenant 1).hears = true :=
  ⟨⟨by decide, by decide⟩, ⟨by decide, by decide⟩, by decide, by decide, ⟨by decide, by decide⟩, ⟨by decide, by decide⟩, by decide⟩

theorem witness_ReleaseAndRevokeStopRunningLeases :
    let s := asks 1 (.release 114) (one .active .on)
    let v := asks 0 (.revoke 114) (one (.starting (.rising 0)) (.rising 700))
    s.Holds 1 0 (.release 114) ∧ s.liveLease (handleOfWord 114) = some (l114 .active) ∧ (s.rail 3).powered = true ∧
      v.Holds 0 0 (.revoke 114) ∧ v.liveLease (handleOfWord 114) = some (l114 (.starting (.rising 0))) ∧
      (v.rail 3).powered = true :=
  ⟨⟨by decide, by decide⟩, by decide, by decide, ⟨by decide, by decide⟩, by decide⟩

/-- Of two members the second is the member in turn where both are powered, the first where the second never started. -/
theorem witness_ReleaseAndRevokeStopRunningLeases_two :
    let s := asks 1 (.release 114) (withRail 4 .on 5000 (some h114) (two .active))
    let v := asks 0 (.revoke 114) (two (.starting (.delay 0 9)))
    s.Holds 1 0 (.release 114) ∧ s.liveLease (handleOfWord 114) = some (l2 .active) ∧ (s.rail 4).powered = true ∧
      (l2 .active).members[1]? = some (member 4 5000 100) ∧ v.Holds 0 0 (.revoke 114) ∧
      v.liveLease (handleOfWord 114) = some (l2 (.starting (.delay 0 9))) ∧ (v.rail 3).powered = true ∧
      (v.rail 4).down = true :=
  ⟨⟨by decide, by decide⟩, by decide, by decide, by decide, ⟨by decide, by decide⟩, by decide⟩

theorem witness_RenewSetsTheTerm :
    let s := asks 1 (.renew 114 65535) (one .active .on)
    s.Holds 1 0 (.renew 114 65535) ∧ s.liveLease (handleOfWord 114) = some (l114 .active) ∧ (l114 .active).stop? = none :=
  ⟨⟨by decide, by decide⟩, by decide⟩

theorem witness_RenewSetsTheTerm_refused :
    (asks 1 (.renew 130 5) (one .active .on)).liveLease (handleOfWord 130) = none ∧
      (asks 2 (.renew 114 5) (one .active .on)).liveLease (handleOfWord 114) = some (l114 .active) ∧
      (asks 1 (.renew 114 5) (one (.stopping (stopFor .shed)) .off)).liveLease (handleOfWord 114) =
        some (l114 (.stopping (stopFor .shed))) ∧ (l114 (.stopping (stopFor .shed))).stop?.isSome = true := by decide

/-- A lease of `one` with a term of 1 s. -/
def termed (st : LeaseState) : State :=
  withLease 2 7 { l114 st with term := some { length := 1, deadline := 1000 } } (one st .off)

theorem witness_DeadlinesEndWaitingLeases :
    let s := { termed .waiting with now := 1000 }
    let v := { one .waiting .off with queue := [{ handle := h114, kind := .claim 600000 15 }], now := 600000 }
    s.Steady ∧ s.liveLease h114 = some { l114 .waiting with term := some { length := 1, deadline := 1000 } } ∧ 1000 ≤ s.now ∧
      (termed .suspended).liveLease h114 = some { l114 .suspended with term := some { length := 1, deadline := 1000 } } ∧
      (s.tenant 1).hears = true ∧
      v.queue.find? (fun e => e.handle = h114) = some { handle := h114, kind := .claim 600000 15 } ∧ 600000 ≤ v.now :=
  ⟨⟨by decide, by decide⟩, by decide⟩

/-- Before the deadlines, with a running lease too; and a lease without a term. -/
theorem witness_DeadlinesEndWaitingLeases_early :
    (termed .active).liveLease h114 = some { l114 .active with term := some { length := 1, deadline := 1000 } } ∧
      (termed .active).now < 1000 ∧ (one .active .on).liveLease h114 = some (l114 .active) ∧ (l114 .active).term = none ∧
      ({ one .waiting .off with queue := [{ handle := h114, kind := .claim 600000 15 }] } : State).queue.find?
        (fun e => e.handle = h114) = some { handle := h114, kind := .claim 600000 15 } := by decide

/-- R21: a LAPSE that is taken after a RENEW of 60 s at 900 ms does not happen at 1,000 ms, and does at 60,900 ms. -/
theorem test_lapse_after_renew :
    let u := after (.renew 1) (asks 1 (.renew 114 60) { withRail 3 .on 12000 (some h114) (termed .active) with now := 900 })
    after (.lapse h114) { u with now := 1000 } = { u with now := 1000 } ∧
      ((after (.lapse h114) { u with now := 60900 }).lease? 2).map (fun l => l.state.code) = some 6 := by decide

theorem witness_StartSequenceAdvances :
    let s := one (.starting (.rising 0)) (.rising 700)
    let v := { one (.starting (.delay 0 10)) .on with now := 10 }
    s.liveLease h114 = some (l114 (.starting (.rising 0))) ∧ (s.rail 3).state = .rising 700 ∧ (s.rail 3).lease = some h114 ∧
      (l114 (.starting (.rising 0))).members[0]? = some (member 3 12000 2500) ∧ (member 3 12000 2500).stepDelay ≠ 0 ∧
      v.liveLease h114 = some (l114 (.starting (.delay 0 10))) ∧ 10 ≤ v.now ∧
      (one (.starting (.delay 0 10)) .on).now < 10 ∧
      0 + 1 = (l114 (.starting (.delay 0 10))).members.length := by
  decide

theorem witness_StartSequenceAdvances_next :
    let s := withRail 3 (.rising 700) 12000 (some h114) (two (.starting (.rising 0)))
    let v := { two (.starting (.delay 0 255)) with now := 255 }
    s.liveLease h114 = some (l2 (.starting (.rising 0))) ∧ (s.rail 3).state = .rising 700 ∧ (s.rail 3).lease = some h114 ∧
      (l2 (.starting (.rising 0))).members[0]? = some { member 3 12000 2500 with stepDelay := 0 } ∧
      (l2 (.starting (.rising 0))).members[0 + 1]? = some (member 4 5000 100) ∧ (s.rail 4).state = .off ∧
      v.liveLease h114 = some (l2 (.starting (.delay 0 255))) ∧ (v.rail 4).state = .off ∧ 255 ≤ v.now := by decide

/-- The pending adjustment of a voltage, to a charge. -/
def slewTo (charge : Nat) : Adjustment :=
  { changes := [{ member := 0, tier := 0, voltage := 5000, current := 2500, charge := charge }], newCharge := charge, slewing := [0] }

theorem witness_SlewDeadlineSettlesTheAdjustment :
    let s := { one (.adjusting (slewTo 12500)) (.slewing 800) with now := 800 }
    (s.rail 3).state = .slewing 800 ∧ (s.rail 3).lease = some h114 ∧ 800 ≤ s.now ∧
      (one (.adjusting (slewTo 12500)) (.slewing 800)).now < 800 ∧
      s.liveLease h114 = some (l114 (.adjusting (slewTo 12500))) ∧ s.queue = [] := by decide

theorem witness_FallOfAFreeRailEnds :
    let s := { withRail 3 (.falling 200) 12000 none serving with now := 200 }
    (s.rail 3).state = .falling 200 ∧ (s.rail 3).lease = none ∧ 200 ≤ s.now ∧ serving.now < 200 ∧
      ((s.config 3).retryLimit < (s.faultRecord 3).count ↔ False) ∧
      (s.config 3).retryLimit < ((s.setFaultRecord 3 { count := 1, last := some .overcurrent, stable := none }).faultRecord 3).count := by
  decide

theorem witness_LowReachedEndsAStop :
    let s := withRail 4 .locked 0 (some h114)
      (withRail 3 (.falling 200) 12000 (some h114) (two (.stopping (stopFor .released))))
    (s.rail 3).state = .falling 200 ∧ (s.rail 3).lease = some h114 ∧
      s.liveLease h114 = some (l2 (.stopping (stopFor .released))) ∧
      3 ∈ (l2 (.stopping (stopFor .released))).members.map Member.rail ∧
      (∀ m ∈ (l2 (.stopping (stopFor .released))).members, m.rail ≠ 3 → (s.rail m.rail).down = true) ∧
      (s.faultRecord 3).count ≤ (s.config 3).retryLimit ∧ s.queue = [] ∧ s.Steady ∧ (s.tenant 1).hears = true :=
  ⟨by decide, by decide, by decide, by decide, by decide, by decide, by decide, ⟨by decide, by decide⟩, by decide⟩

/-- The second member in turn comes down, and the first, ON or FALLING, is next. -/
theorem witness_LowReachedEndsAStop_turn :
    let stop : StopRecord := { stopFor .released with inTurn := some 1 }
    let s := withRail 4 (.falling 200) 5000 (some h114) (two (.stopping stop))
    (s.rail 4).state = .falling 200 ∧ (s.rail 4).lease = some h114 ∧ s.liveLease h114 = some (l2 (.stopping stop)) ∧
      (l2 (.stopping stop)).members[1]? = some (member 4 5000 100) ∧
      (l2 (.stopping stop)).members[0]? = some { member 3 12000 2500 with stepDelay := 0 } ∧ (s.rail 3).powered = true ∧
      ((withRail 3 (.falling 300) 12000 (some h114) s).rail 3).down = false ∧
      (s.faultRecord 4).count ≤ (s.config 4).retryLimit := by decide

/-- The first member comes down while the second is in turn. -/
theorem witness_LowReachedEndsAStop_out_of_turn :
    let stop : StopRecord := { stopFor .released with inTurn := some 1 }
    let s := withRail 3 (.falling 200) 12000 (some h114) (withRail 4 (.falling 200) 5000 (some h114) (two (.stopping stop)))
    (s.rail 3).state = .falling 200 ∧ s.liveLease h114 = some (l2 (.stopping stop)) ∧
      ((l2 (.stopping stop)).members[1]?).map Member.rail ≠ some 3 ∧
      (∃ n ∈ (l2 (.stopping stop)).members, n.rail ≠ 3 ∧ (s.rail n.rail).down = false) := by decide

theorem witness_FaultStopsTheLease :
    FaultRow (one .active .on) 3 .undervoltage (.pgFall 3) ∧ (one .active .on).liveLease h114 = some (l114 .active) ∧
      FaultRow { one (.starting (.rising 0)) (.rising 700) with now := 700 } 3 .rampTimeout (.rampDeadline 3) ∧
      (one (.starting (.rising 0)) (.rising 700)).now < 700 ∧
      (one (.starting (.rising 0)) (.rising 700)).liveLease h114 = some (l114 (.starting (.rising 0))) ∧
      FaultRow { one (.adjusting (slewTo 12500)) (.slewing 800) with now := 800 } 3 .slewTimeout (.slewDeadline 3 false) ∧
      (one (.adjusting (slewTo 12500)) (.slewing 800)).liveLease h114 = some (l114 (.adjusting (slewTo 12500))) ∧
      (slewTo 12500).newCharge < (l114 .active).charge ∧ (one (.adjusting (slewTo 12500)) (.slewing 800)).queue = [] :=
  ⟨.inl ⟨rfl, rfl, .inl (by decide)⟩, by decide, .inr (.inr (.inr (.inl ⟨rfl, rfl, 700, by decide, by decide⟩))), by decide,
    by decide, .inr (.inr (.inr (.inr ⟨rfl, rfl, 800, by decide, by decide⟩))), by decide, by decide, by decide⟩

/-- A fault at a powered rail that waits its turn, and one more at a FALLING rail already in the faulted set. -/
theorem witness_FaultStopsTheLease_stopping :
    let s := two (.stopping (stopFor .shed))
    let twice : StopRecord := { stopFor .fault with faulted := [3], firstFault := some .overcurrent }
    let v := one (.stopping twice) (.falling 200)
    FaultRow s 3 .overcurrent (.stageFault 3 .overcurrent) ∧ s.liveLease h114 = some (l2 (.stopping (stopFor .shed))) ∧
      (s.rail 3).powered = true ∧ FaultRow v 3 .overtemperature (.stageFault 3 .overtemperature) ∧
      v.liveLease h114 = some (l114 (.stopping twice)) ∧ (v.rail 3).powered = false ∧ 3 ∈ twice.faulted :=
  ⟨.inr (.inl ⟨rfl, rfl, by decide⟩), by decide, by decide, .inr (.inr (.inl ⟨rfl, rfl, by decide⟩)), by decide⟩

/-- The fault stop of `one` about to complete, with a term. -/
def faulted (deadline : Nat) : Lease :=
  { l114 (.stopping { stopFor .fault with faulted := [3] }) with term := some { length := 1, deadline := deadline } }

theorem witness_FaultStopRetries :
    let s := { one .active (.falling 200) with committedTotal := 6000, now := 150 }
    let fresh := withLease 2 7 (faulted 1000) s
    let late := withLease 2 7 (faulted 100) s
    (fresh.rail 3).state = .falling 200 ∧ fresh.liveLease h114 = some (faulted 1000) ∧
      (fresh.faultRecord 3).count ≤ (fresh.config 3).retryLimit ∧ fresh.Steady ∧ fresh.now < 1000 ∧
      fresh.committedTotal + 30000 ≤ fresh.available ∧
      late.liveLease h114 = some (faulted 100) ∧ 100 ≤ late.now ∧ (late.tenant 1).hears = true ∧ late.queue = [] :=
  ⟨by decide, by decide, by decide, ⟨by decide, by decide⟩, by decide, by decide, by decide, by decide, by decide, by decide⟩

/-- R11: a lease whose term passed in its FAULT stop ends LAPSED, here where a shed pass would otherwise have ended it with SHED. -/
theorem test_lapse_at_stop_completion :
    let s := withLease 2 7 (faulted 100) { one .active (.falling 200) with committedTotal := 7000, now := 150 }
    ((after (.lowReached 3) s).lease? 2).map Lease.state = some (.ended .lapsed) ∧
      (after (.lowReached 3) s).committedTotal = 7000 := by decide

theorem witness_RetryDeadlinesAct :
    let s := { one (.retryWait 30000) .off with now := 30000 }
    s.liveLease h114 = some (l114 (.retryWait 30000)) ∧ (s.rail 3).state = .off ∧ 30000 ≤ s.now ∧
      (one (.retryWait 30000) .off).now < 30000 ∧
      ((s.setFaultRecord 3 { count := 15, last := none, stable := some 2000 }).faultRecord 3).stable = some 2000 := by decide

theorem witness_QueriesAndOpenTenantBeginTheirAccess :
    let s := one .active .on
    let closed := { s with tenants := s.tenants.set 3 Tenant.powerOn }
    (asks 0 (.openTenant 3) closed).Holds 0 0 (.openTenant 3) ∧
      ((asks 0 (.openTenant 3) closed).tenant 3).state = .closed ∧
      (asks 1 (.queryLease 114 128) s).Holds 1 0 (.queryLease 114 128) ∧
      (asks 1 (.queryLease 114 128) s).resolve (handleOfWord 114) = some (l114 .active) ∧
      (asks 2 (.queryRail 11 64) s).Holds 2 0 (.queryRail 11 64) ∧ (asks 2 (.queryBudget 2 0) s).Holds 2 0 (.queryBudget 2 0) ∧
      (asks 0 (.queryTenant 3 64) s).Holds 0 0 (.queryTenant 3 64) :=
  ⟨⟨by decide, by decide⟩, by decide, ⟨by decide, by decide⟩, by decide, ⟨by decide, by decide⟩, ⟨by decide, by decide⟩,
    ⟨by decide, by decide⟩⟩

/-- The first two entries of rail 5's list, a CAPPED one with them. -/
def threeEntries : List TierEntry :=
  [{ vmin := 12000, vmax := 12000, imax := 8000, cap := 7, kind := 0 }, { vmin := 3000, vmax := 9000, imax := 1, cap := 0, kind := 1 },
    { vmin := 3300, vmax := 12000, imax := 8000, cap := 1920000, kind := 2 }]

theorem witness_SetTiersReplacesTheList :
    let s := asks 0 (.setTiers 6 3 threeEntries) board
    s.Holds 0 0 (.setTiers 6 threeEntries.length threeEntries) ∧ (s.rail 6).lease = none ∧
      List.Forall₂ (fun (e : TierEntry) (x : Tier) =>
        tierKindOf e.kind = some x.kind ∧ x.vmin = e.vmin ∧ x.vmax = e.vmax ∧ x.imax = e.imax ∧
          x.cap = (if x.kind = .capped then e.cap else 0) ∧ e.vmin % 10 = 0 ∧ e.vmax % 10 = 0 ∧ e.vmin ≤ e.vmax ∧
          (x.kind = .fixed → e.vmin = e.vmax) ∧ (s.config 6).floor ≤ e.vmin ∧ e.vmax ≤ (s.config 6).ceiling ∧
          1 ≤ e.imax ∧ e.imax ≤ (s.config 6).currentCeiling ∧ (x.kind = .capped → 1 ≤ e.cap ∧ e.cap ≤ 1920000)) threeEntries
        [{ kind := .fixed, vmin := 12000, vmax := 12000, imax := 8000, cap := 0 },
          { kind := .ranged, vmin := 3000, vmax := 9000, imax := 1, cap := 0 },
          { kind := .capped, vmin := 3300, vmax := 12000, imax := 8000, cap := 1920000 }] :=
  ⟨⟨by decide, by decide⟩, by decide, .cons (by decide) (.cons (by decide) (.cons (by decide) .nil))⟩

theorem witness_SetRailWritesTheRecord :
    let s := asks 0 (.setRail { rail := 5, config := railLimits }) board
    let v := asks 0 (.setRail { rail := 5, config := { railLimits with configured := false } }) board
    s.Holds 0 0 (.setRail { rail := 5, config := railLimits }) ∧ (s.rail 5).lease = none ∧ (s.rail 5).isFalling = false ∧
      railLimits.inRange = true ∧ tiersWithin (s.tierList 5) railLimits = true ∧
      v.Holds 0 0 (.setRail { rail := 5, config := { railLimits with configured := false } }) :=
  ⟨⟨by decide, by decide⟩, by decide, by decide, by decide, by decide, ⟨by decide, by decide⟩⟩

theorem witness_SetFeedAndSetMarginConfigureTheBudget :
    let s := asks 0 (.setFeed 0 70000 5000) board
    let v := asks 0 (.setMargin 70000) board
    s.Holds 0 0 (.setFeed 0 70000 5000) ∧ s.queue = [] ∧ (s.feed 0).state = .present ∧ 70000 < (s.feed 0).capacity ∧
      s.chargedTotal ≤ (s.setFeedRecord 0 { s.feed 0 with capacity := 70000, qualify := 5000 }).available ∧
      v.Holds 0 0 (.setMargin 70000) ∧ v.margin < 70000 ∧ v.chargedTotal ≤ v.presentCapacity - 70000 :=
  ⟨⟨by decide, by decide⟩, by decide, by decide, by decide, by decide, ⟨by decide, by decide⟩, by decide⟩

theorem witness_SetQuotaAndSetQueuePolicyWriteTheirValues :
    let s := asks 0 (.setQuota 2 3 30000) board
    s.Holds 0 0 (.setQuota 2 3 30000) ∧ (s.account 2).charged ≤ 30000 ∧ s.queue = [] ∧
      (asks 0 (.setQueuePolicy 15 600) board).Holds 0 0 (.setQueuePolicy 15 600) :=
  ⟨⟨by decide, by decide⟩, by decide, by decide, ⟨by decide, by decide⟩⟩

theorem witness_ClearLockoutUnlocks :
    let s := asks 0 (.clearLockout 11) (withRail 11 .locked 0 none serving)
    s.Holds 0 0 (.clearLockout 11) ∧ (s.rail 11).state = .locked ∧ (s.rail 11).lease = none :=
  ⟨⟨by decide, by decide⟩, by decide⟩

theorem witness_AssignRailSetsTheOwner :
    (asks 0 (.assignRail 4 3) board).Holds 0 0 (.assignRail 4 3) ∧ ((asks 0 (.assignRail 4 3) board).rail 4).lease = none ∧
      (asks 0 (.assignRail 4 255) board).Holds 0 0 (.assignRail 4 255) :=
  ⟨⟨by decide, by decide⟩, by decide, ⟨by decide, by decide⟩⟩

theorem witness_OfferRailAndWithdrawOfferRecordTheOffer :
    let s := asks 2 (.offerRail 4 3 60) board
    let v := asks 1 (.withdrawOffer 10) (handover 0)
    s.Holds 2 0 (.offerRail 4 3 60) ∧ (s.owned 4) = { owner := some 2, offer := none } ∧ s.inBundle 4 = false ∧
      (s.tenant 3).state = .isOpen ∧ v.Holds 1 0 (.withdrawOffer 10) ∧
      (v.owned 10).offer = some { offerer := 1, target := 3, deadline := 20000 } :=
  ⟨⟨by decide, by decide⟩, by decide, by decide, by decide, ⟨by decide, by decide⟩, by decide⟩

theorem witness_AcceptRailMovesAFreeRail :
    let s := asks 3 (.acceptRail 10) (withRail 10 .locked 0 none (handover 0))
    s.Holds 3 0 (.acceptRail 10) ∧ (s.owned 10).offer = some { offerer := 1, target := 3, deadline := 20000 } ∧
      s.leaseOfRail 10 = none :=
  ⟨⟨by decide, by decide⟩, by decide⟩

theorem witness_AcceptRailMovesTheLease :
    let s := asks 3 (.acceptRail 10) (handover 75000)
    let v := asks 3 (.acceptRail 10) (withLease 7 2 (lease .suspended 1 1 false [member 10 5000 5000]) (handover 100000))
    s.Holds 3 0 (.acceptRail 10) ∧ (s.owned 10).offer = some { offerer := 1, target := 3, deadline := 20000 } ∧
      s.leaseOfRail 10 = some (7, { lease .active 1 1 false [member 10 5000 5000] with count := 1 }) ∧ s.queue = [] ∧
      (s.account 3).charged + 25000 ≤ (s.account 3).quota ∧ v.Holds 3 0 (.acceptRail 10) ∧
      v.leaseOfRail 10 = some (7, lease .suspended 1 1 false [member 10 5000 5000]) :=
  ⟨⟨by decide, by decide⟩, by decide, by decide, by decide, by decide, ⟨by decide, by decide⟩, by decide⟩

theorem witness_OfferExpiryRemovesTheOffer :
    let s := { handover 0 with now := 20000 }
    (s.owned 10).offer = some { offerer := 1, target := 3, deadline := 20000 } ∧ 20000 ≤ s.now ∧ (handover 0).now < 20000 := by
  decide

theorem witness_CloseTenantOfAnIdleTenant :
    let s := asks 0 (.closeTenant 3) serving
    s.Holds 0 0 (.closeTenant 3) ∧ s.service ≠ .idle ∧ s.service.isDraining = false ∧ (s.tenant 3).state = .isOpen ∧
      (∀ m, (s.tenant m).state ≠ .closing) ∧ s.holdsLease 3 = false ∧ s.holdsContext 3 = false ∧ (s.tenant 3).outbound = [] ∧
      (s.tenant 3).writer = none ∧ (∀ d : CtxId, ((s.context d).map Context.stage) ≠ some (.tearing 3)) ∧
      (∀ r, (s.owned r).offer = none) :=
  ⟨⟨by decide, by decide⟩, by decide⟩

/-- A record of a kind and tag. -/
def recordOf (kind tag : Byte) : List Byte := [1, kind, tag, 0] ++ zeros 60

/-- Tenant 1 with its lease 114, a WAITING lease 51 in slot 3 with its entry, a completion and the marker of lease 114 in its queue,
a command taken in context 1, a finished one in context 2 and a report write in context 3; tenant 2 holds a marker of lease 114. -/
def tearing (st : LeaseState) (rs : RailState) : State :=
  let s := { one st rs with queue := [{ handle := { slot := 3, gen := 3 }, kind := .claim 600000 0 }] }
  let s := withLease 3 3 (lease .waiting 1 0 false [member 5 5000 100]) s
  let hold := fun (c : CtxId) (stage : Stage) (s : State) =>
    s.setContext c (some { tenant := 1, record := recordOf 0x03 7, tag := none, stage := stage })
  let s := hold 1 .taken (hold 2 .finished (hold 3 (.reporting 0x40 (zeros 64) .live) s))
  let s := s.setTenant 1
    { opened with
      inFlight := 3
      outbound := [.marker (.lease h114) .active,
        .completion { ctx := 2, tag := 7, kind := 3, status := .ok, detail := .none, handle := none, charge := 0 }] }
  asks 0 (.closeTenant 1) (s.setTenant 2 { opened with outbound := [.marker (.lease h114) .transferred] })

theorem witness_CloseTenantTearsDown :
    let s := tearing .active .on
    s.takenCommand admin = some (0, .closeTenant 1) ∧ s.service ≠ .idle ∧ (s.tenant 1).state = .isOpen ∧
      s.lease? 2 = some (l114 .active) ∧ (s.rail 3).down = false ∧
      (∀ e ∈ s.queue, ((s.resolve e.handle).any Lease.waits) = true) ∧
      (s.context 1).map Context.stage = some .taken ∧
      (s.context 3).map Context.stage = some (.reporting 0x40 (zeros 64) .live) ∧
      (∀ c : CtxId, (s.context c).map (fun x => (x.tenant, x.stage)) = some (1, .taken) → c = 1) := by decide

theorem witness_CloseTenantTearsDown_waiting :
    (tearing (.retryWait 9) .off).MarkedElsewhere 1 ((tearing (.retryWait 9) .off).handleOf 2) ∧
      ¬(tearing .waiting .off).MarkedElsewhere 1 ((tearing .waiting .off).handleOf 3) ∧
      ((tearing (.stopping (stopFor .shed)) (.falling 200)).lease? 2).map (fun l => l.stop?.isSome) = some true := by
  refine ⟨⟨2, .transferred, by decide, by decide⟩, ?_, by decide⟩
  rintro ⟨m, reason, hm, h⟩
  have key : ∀ n : TenantId, n ≠ 1 → ((tearing .waiting .off).tenant n).outbound.any
    (OutEntry.isMarker (.lease ((tearing .waiting .off).handleOf 3))) = false := by decide
  exact Bool.false_ne_true ((key m hm).symm.trans (List.any_eq_true.mpr ⟨_, h, beq_self_eq_true _⟩))

theorem witness_StartServiceServes :
    let s := asks 0 .startService { serving with service := .configuring }
    s.Holds 0 0 .startService ∧ s.service = .configuring ∧ s.anyLive = false ∧ (∀ n, (s.tenant n).state ≠ .closing) ∧
      (asks 0 .startService serving).Holds 0 0 .startService :=
  ⟨⟨by decide, by decide⟩, by decide, by decide, by decide, ⟨by decide, by decide⟩⟩

theorem witness_DrainOfAnEmptyTableEndsAtOnce :
    let s := asks 0 .stopService serving
    s.Holds 0 0 .stopService ∧ s.service = .serving ∧ s.anyLive = false ∧ (∀ n, (s.tenant n).state ≠ .closing) ∧
      (∀ d : CtxId, ((s.context d).map Context.stage) ≠ some .draining) :=
  ⟨⟨by decide, by decide⟩, by decide⟩

theorem witness_DrainLeavesOnlyStoppingLeases :
    let s := asks 0 .stopService { one .waiting .off with queue := [{ handle := h114, kind := .claim 600000 0 }] }
    s.service = .serving ∧ s.takenCommand admin = some (0, .stopService) ∧ s.resolve h114 = some (l114 .waiting) ∧
      (l114 .waiting).waits = true := by decide

theorem witness_ControlWritesAreRecorded :
    State.reset.service = .idle ∧ State.reset.controlRead = none ∧ serving.service ≠ .idle ∧
      (let s := serving.setTenant 0 { opened with state := .broken }
       (s.tenant admin).state = .broken ∧ s.controlRead = none ∧ ∀ c, s.context c = none) ∧
      (serving.tenant admin).state ≠ .broken := by decide

theorem witness_DescriptorBaseWrites :
    State.reset.service = .idle ∧ State.reset.controlRead = none ∧
      ({ State.reset with controlRead := some (.start 0) } : State).controlRead ≠ none := by decide

theorem witness_DescriptorReadsEnd :
    (some descriptorBytes).bind judgeDescriptor = some ring ∧ (some (zeros 32)).bind judgeDescriptor = none ∧
      ({ State.reset with controlRead := some (.start 0) } : State).controlRead = some (.start 0) ∧
      ({ serving with controlRead := some (.adminReopen 0) } : State).controlRead = some (.adminReopen 0) ∧
      (serving.setContext 0 (some { tenant := 0, record := [], tag := none, stage := .openRead 3 0x1060 })).findContext admin
        Stage.isOpenRead = some (0, { tenant := 0, record := [], tag := none, stage := .openRead 3 0x1060 }) ∧
      (serving.tenant admin).hears = true := by decide

theorem witness_SignalWrites : (State.reset.tenant 1).state ≠ .isOpen ∧ (serving.tenant 1).state = .isOpen := by decide

theorem witness_IntakeGrantsInTurn :
    let s := serving.setTenant 2 { opened with scanPending := true, inFlight := 11 }
    (s.tenant 2).state = .isOpen ∧ (s.tenant 2).scanPending = true ∧ (s.tenant 2).inFlight < 12 ∧ (s.tenant 2).underWay = false ∧
      (∀ n, (s.tenant n).scanPending = true → (2 - s.lastGranted - 1).val ≤ (n - s.lastGranted - 1).val) ∧
      (s.tenant 2).desc = some ring ∧ s.context 23 = none := by decide

/-- Tenant 1 with one context in a stage. -/
def inStage (stage : Stage) (record : List Byte) : State :=
  (serving.setTenant 1 { opened with underWay := true, inFlight := 1 }).setContext 5
    (some { tenant := 1, record := record, tag := none, stage := stage })

theorem witness_HeadReadsEnd :
    let s := inStage (.headRead 0x10000 true .live) []
    s.context 5 = some { tenant := 1, record := [], tag := none, stage := .headRead 0x10000 true .live } ∧
      (∀ e : CtxId, e ≠ 5 → s.context e = none) ∧ byteAt [0xFF] 0 ≠ 0 ∧ byteAt (zeros 64) 0 = 0 := by decide

theorem witness_FillByteWritesTakeTheCommand :
    let s := inStage (.fillWrite 0x10000 .live) (recordOf 0x51 7)
    s.context 5 = some { tenant := 1, record := recordOf 0x51 7, tag := none, stage := .fillWrite 0x10000 .live } ∧
      (∀ e : CtxId, e ≠ 5 → s.context e = none) ∧ (s.tenant 1).desc = some ring ∧ (s.tenant 1).hears = true ∧
      Command.read (recordOf 0x51 7) = some .stopService ∧ Command.adminOnly .stopService = true ∧
      Command.read (recordOf 0x06 7) = none ∧ Command.read (recordOf 0x03 7) = some (.release 0) ∧
      Command.allowed (.release 0) .configuring = false ∧ Command.allowed (.release 0) .serving = true ∧
      Command.adminOnly (.release 0) = false := by decide

theorem witness_FillByteWritesTakeTheCommand_tag :
    let s := (inStage (.fillWrite 0x10000 .live) (recordOf 0x03 7)).setContext 9
      (some { tenant := 1, record := recordOf 0x03 7, tag := some 7, stage := .finished })
    (s.context 9).map Context.tag = some (some (recordTag (recordOf 0x03 7))) ∧
      (∀ e : CtxId, e ≠ 5 → ((s.context e).map fun y => y.stage.isFillWrite) ≠ some true) := by decide

theorem witness_WriterReadsTheTail :
    (queued.tenant 1).desc = some ring ∧ (queued.tenant 1).state = .isOpen ∧ (queued.tenant 1).stalled = false ∧
      (queued.tenant 1).outbound ≠ [] ∧ (queued.tenant 1).writer = none ∧ (serving.tenant 1).outbound = [] ∧
      (let s := serving.setTenant 1 { opened with stalled := true, recheck := some 10 }
       (s.tenant 1).desc = some ring ∧ (s.tenant 1).recheck = some 10 ∧ (s.tenant 1).writer = none ∧ s.now < 10 ∧
         10 ≤ ({ s with now := 10 } : State).now) := by decide

theorem witness_TailReadsEnd :
    let s := (one (.ended .released) .off).setTenant 1
      { opened with outbound := [.marker (.lease h114) .ended], writer := some (.tailRead 0x20000 .live) }
    (s.tenant 1).writer = some (.tailRead 0x20000 .live) ∧ (s.tenant 1).outbound = [.marker (.lease h114) .ended] ∧
      s.resolve h114 = some (l114 (.ended .released)) ∧ (l114 (.ended .released)).live = false ∧
      (s.setTenant 1 { s.tenant 1 with outbound := [] }).marked h114 = false ∧
      (let v := (one .active .on).setTenant 1
         { opened with outbound := [.marker (.lease h114) .active], stalled := true, writer := some (.recheckRead 0x20000 .live) }
       (v.tenant 1).writer = some (.recheckRead 0x20000 .live) ∧ v.lease? 2 = some (l114 .active)) := by decide

theorem witness_RecordWritesEnd :
    let s := (inStage .finished (recordOf 0x03 7)).setTenant 1
      { opened with inFlight := 1, tail := 7, writer := some (.recordWrite 0x20070 (zeros 16) (some 5) .stale) }
    (s.tenant 1).writer = some (.recordWrite 0x20070 (zeros 16) (some 5) .stale) ∧ (s.tenant 1).desc = some ring ∧
      (s.context 5).map Context.tenant = some 1 := by decide

theorem witness_ReportWritesEnd :
    let s := inStage (.reporting 0x40 (zeros 64) .live) (recordOf 0x10 7)
    s.context 5 = some { tenant := 1, record := recordOf 0x10 7, tag := none, stage := .reporting 0x40 (zeros 64) .live } ∧
      (s.tenant 1).hears = true ∧ (∀ e : CtxId, e ≠ 5 → s.context e = none) := by decide

theorem witness_RingErrorBreaksTheTenant :
    ((inStage (.headRead 0x10000 false .live) []).context 5).map Context.stage = some (.headRead 0x10000 false .live) ∧
      ((inStage (.fillWrite 0x10000 .live) []).context 5).map Context.stage = some (.fillWrite 0x10000 .live) ∧
      (∀ e : CtxId, e ≠ 5 → (inStage (.fillWrite 0x10000 .live) []).context e = none) ∧
      ((serving.setTenant 1 { opened with writer := some (.recordWrite 0x20000 (zeros 16) none .live) }).tenant 1).writer =
        some (.recordWrite 0x20000 (zeros 16) none .live) ∧
      (((inStage .finished []).setTenant 1 { opened with writer := some (.recordWrite 0x20000 (zeros 16) (some 5) .live) }).context
        5).map Context.tenant = some 1 := by decide

theorem witness_SenseLinesAreFollowed :
    (State.reset.feed 2).state = .absent ∧
      ((State.reset.setFeedRecord 2 { capacity := 1, qualify := 10, state := .qualifying 10 }).feed 2).state = .qualifying 10 ∧
      (let s := { one .active .on with committedTotal := 0 }
       (s.feed 0).state = .present ∧ s.committedTotal ≤ (s.setFeedRecord 0 { s.feed 0 with state := .absent }).available) := by decide

/-- A part in which a feed of 10,000 mW qualifies at 10 ms, with room for 1,000 mW: WAITING leases of 20,000, 6,000 and 5,000 mW,
each with its entry, the first and last with a pass count, under a pass limit. -/
def scanned (limit first last : Nat) : State :=
  let entry := fun (i : SlotId) n => ({ handle := { slot := i, gen := 1 }, kind := .claim 600000 n } : QueueEntry)
  let s := { serving with
    feeds := serving.feeds.set 2 { capacity := 10000, qualify := 10, state := .qualifying 10 }, now := 10
    queue := [entry 1 first, entry 2 0, entry 3 last], passLimit := limit, railConfig := Vector.replicate 12 railLimits }
  let s := s.setAccount 1 { quota := 40000, maxClass := 3, charged := 0 }
  withLease 1 1 (lease .waiting 1 0 false [member 1 5000 4000]) (withLease 2 1 (lease .waiting 1 0 false [member 2 5000 1200])
    (withLease 3 1 (lease .waiting 1 0 false [member 3 5000 1000]) s))

/-- The entries of `scanned`. -/
def scannedEntry (i : SlotId) (n : Nat) : QueueEntry := { handle := { slot := i, gen := 1 }, kind := .claim 600000 n }

/-- The same after its feed is PRESENT. -/
def present (s : State) : State := s.setFeedRecord 2 { s.feed 2 with state := .present }

theorem witness_QualifiedFeedIsPresent :
    let s := serving.setFeedRecord 2 { capacity := 4000000, qualify := 10, state := .qualifying 10 }
    (s.feed 2).state = .qualifying 10 ∧ s.now < 10 ∧ (present { s with now := 10 }).ScanEnds s.queue :=
  ⟨by decide, by decide, [], [], rfl, fun _ h => (nomatch h), fun _ h => (nomatch h)⟩

/-- An entry that blocks, at the pass limit, ends the scan. -/
theorem witness_QualifiedFeedIsPresent_blocked :
    let s := scanned 4 4 0
    (s.feed 2).state = .qualifying 10 ∧ 10 ≤ s.now ∧ s.available < (present s).available ∧ (present s).ScanEnds s.queue := by
  refine ⟨by decide, by decide, by decide, [], [scannedEntry 1 4, scannedEntry 2 0, scannedEntry 3 0], rfl, ?_, ?_⟩
  · intro e h
    cases h
  · rintro e ⟨⟩
    exact ⟨⟨_, rfl, by decide⟩, by decide⟩

/-- The first entry is skipped, the second granted, and the third no longer fits. -/
theorem witness_QualifiedFeedIsPresent_granted :
    let s := scanned 0 15 0
    let l := lease .waiting 1 0 false [member 2 5000 1200]
    s.available < (present s).available ∧ s.queue = [scannedEntry 1 15] ++ scannedEntry 2 0 :: [scannedEntry 3 0] ∧
      (s.queue.map QueueEntry.handle).Nodup ∧ (present s).Unfit (scannedEntry 1 15) ∧
      (scannedEntry 1 15).blocking s.passLimit = false ∧ s.liveLease (scannedEntry 2 0).handle = some l ∧
      (s.rail 2).state = .off ∧ (present s).fits l.tenant l.charge = true ∧
      ((present s).charge l.tenant l.charge).ScanEnds [scannedEntry 3 0] := by
  refine ⟨by decide, by decide, by decide, ⟨_, rfl, by decide⟩, by decide, by decide, by decide, by decide,
    [scannedEntry 3 0], [], rfl, ?_, fun _ h => (nomatch h)⟩
  intro e h
  obtain rfl := List.mem_singleton.mp h
  exact ⟨⟨_, rfl, by decide⟩, by decide⟩

/-- The grant brings the skipped entry to the pass limit, and the scan ends there though the third entry was not tested. -/
theorem witness_QualifiedFeedIsPresent_passed :
    let s := scanned 4 3 0
    (scannedEntry 1 3).blocking s.passLimit = false ∧ (scannedEntry 1 3).passed.blocking s.passLimit = true ∧
      (after (.qualifyDeadline 2) s).queue = [scannedEntry 1 4, scannedEntry 3 0] := by decide

/-- `threeFeeds` with lease 22, and feed 1 lost. -/
def sixLeases : State :=
  let s := withLease 6 1 (charged 40000 (lease (.stopping (stopFor .released)) 3 0 false [member 6 5000 1])) threeFeeds
  s.setFeedRecord 1 { s.feed 1 with state := .absent }

theorem witness_ShedPassEndsWithinTheBudget :
    TotalsLaw sixLeases ∧ GrantOrderLaw sixLeases ∧ sixLeases.available < sixLeases.committedTotal := by
  refine ⟨by unfold TotalsLaw; decide, ⟨by decide, ?_, by decide⟩, by decide⟩
  have key : ∀ h ∈ sixLeases.grantOrder, (sixLeases.resolve h).any Lease.committed = true := by decide
  intro h m
  obtain ⟨l, e, c⟩ := (Option.any_eq_true _ _).mp (key h m)
  exact ⟨l, e, c⟩

end Sys2Proof.Tests
end

/-! PROOFS. Leases: RENEW (R20). -/

namespace Sys2Proof.Machine

/-! ### What a change of tenants and command contexts alone keeps -/

section
variable {s u : State}

theorem OnlyRings.keepsLeases (h : OnlyRings s u) : KeepsLeases s u := h.slots

theorem OnlyRings.keepsBudget (h : OnlyRings s u) : KeepsBudget s u :=
  ⟨h.feeds, h.margin, h.accounts, h.chargedTotal, h.committedTotal, h.grantOrder⟩

theorem OnlyRings.keepsQueue (h : OnlyRings s u) : KeepsQueue s u := ⟨h.queue, h.passLimit, h.defaultWait⟩

theorem OnlyRings.keepsRails (h : OnlyRings s u) : KeepsRails s u := ⟨h.railConfig, h.rails, h.faults⟩

theorem OnlyRings.keepsTiers (h : OnlyRings s u) : KeepsTiers s u := h.tiers

theorem OnlyRings.keepsOwners (h : OnlyRings s u) : KeepsOwners s u := h.ownership

theorem OnlyRings.keepsService (h : OnlyRings s u) : KeepsService s u :=
  ⟨h.service, h.controlRead, h.descriptorBase, h.lastAction, h.outcome, h.startError⟩

theorem OnlyRings.keepsClock (h : OnlyRings s u) : KeepsClock s u := ⟨h.now, h.pending, h.choices⟩

end

/-! ### The write of a lease's record -/

theorem slot_setLease (s : State) (i j : SlotId) (l : Lease) :
    (s.setLease i l).slot j = if j = i then { s.slot i with lease := some l } else s.slot j :=
  State.slot_setSlot s i j _

/-- A write of a live lease's record keeps the generation of its slot (R2). -/
theorem slot_setLease_of_liveLease {s : State} {h : Handle} {l : Lease} (hl : s.liveLease h = some l) (l' : Lease) :
    (s.setLease h.slot l').slot h.slot = { gen := h.gen, lease := some l' } := by
  obtain ⟨hslot, -⟩ := liveLease_slot hl
  rw [slot_setLease, if_pos rfl, hslot]

theorem keepsOtherSlots_setLease (s : State) (i : SlotId) (l : Lease) : KeepsOtherSlots s (s.setLease i l) i := by
  intro j hj
  rw [slot_setLease, if_neg hj]

theorem sameRings_setLease (s : State) (i : SlotId) (l : Lease) : SameRings s (s.setLease i l) := ⟨rfl, rfl, rfl⟩

/-! ### RENEW (R20) -/

theorem allowed_renew (w term : Nat) (service : ServiceState) :
    (Command.renew w term).allowed service = true ↔ service = .serving := by
  simp [Command.allowed]

theorem exec_renew {s : State} {t : TenantId} {c : CtxId} {w term : Nat}
    (h : s.takenCommand t = some (c, .renew w term)) : exec (.renew t) s = .next (s.renewBody t c w term) := by
  show Host.Outcome.next (renew t s) = _
  simp only [renew, h]

section
variable {s : State} {t : TenantId} {w : Nat} {l : Lease} (c : CtxId) (term : Nat)

theorem renewBody_of_dead (h : s.liveLease (handleOfWord w) = none) :
    s.renewBody t c w term = s.refuse c .noSuchLease .none := by
  simp only [State.renewBody, h]

theorem renewBody_of_foreign (h : s.liveLease (handleOfWord w) = some l) (ht : l.tenant ≠ t) :
    s.renewBody t c w term = s.refuse c .notOwner .none := by
  simp only [State.renewBody, h, if_pos ht]

theorem renewBody_of_stopping (h : s.liveLease (handleOfWord w) = some l) (ht : l.tenant = t)
    (hs : l.stop?.isSome = true) : s.renewBody t c w term = s.refuse c .leaseBusy .none := by
  simp [State.renewBody, h, ht, hs]

theorem renewBody_of_running (h : s.liveLease (handleOfWord w) = some l) (ht : l.tenant = t) (hs : l.stop? = none) :
    s.renewBody t c w term =
      ((s.begin.putLease (handleOfWord w).slot { l with term := renewedTerm s.now term }).reply c .ok).settle := by
  simp [State.renewBody, h, ht, hs]

end

/-- A RENEW that passes its checks finishes OK with no marker; beside that it writes the lease's record alone. -/
theorem renewBody_finishes {s : State} {t : TenantId} {c : CtxId} {w term : Nat} {l : Lease}
    (H : s.Holds t c (.renew w term)) (hl : s.liveLease (handleOfWord w) = some l) (ht : l.tenant = t)
    (hs : l.stop? = none) :
    Finishes s (s.renewBody t c w term) t c .ok .none none 0 [] ∧
      OnlyRings (s.setLease (handleOfWord w).slot { l with term := renewedTerm s.now term })
        (s.renewBody t c w term) := by
  rw [renewBody_of_running c term hl ht hs]
  exact answered s (s.begin.putLease (handleOfWord w).slot { l with term := renewedTerm s.now term }) t c _ H
    (sameRings_setLease s _ _) rfl rfl (fun h => nomatch h) (fun h => nomatch h) .ok .none none 0

/-- Settles O18: a refused RENEW only finishes its command, and one that passes its checks writes the lease's record besides. -/
theorem renewSetsTheTerm : Obligations.RenewSetsTheTerm := by
  intro s t c w term H
  have hexec := exec_renew H.1
  refine ⟨allowed_renew w term, ?_, ?_⟩
  · intro status hcase
    have hrefuse : s.renewBody t c w term = s.refuse c status .none := by
      obtain ⟨hdead, rfl⟩ | ⟨l, hl, hforeign, rfl⟩ | ⟨l, hl, htenant, hstop, rfl⟩ := hcase
      · exact renewBody_of_dead c term hdead
      · exact renewBody_of_foreign c term hl hforeign
      · exact renewBody_of_stopping c term hl htenant hstop
    obtain ⟨hfin, hrings⟩ := refuse_finishes s t c _ H status .none
    rw [hrefuse] at hexec
    exact ⟨_, hexec, hrings.keepsLeases, hrings.keepsBudget, hrings.keepsQueue, hrings.keepsRails, hrings.keepsTiers,
      hrings.keepsOwners, hrings.keepsService, hrings.keepsClock, hfin⟩
  · intro l hl htenant hstop
    obtain ⟨hfin, hrings⟩ := renewBody_finishes H hl htenant hstop
    have hslot := (hrings.slot (handleOfWord w).slot).trans (slot_setLease_of_liveLease hl _)
    have hother : KeepsOtherSlots s (s.renewBody t c w term) (handleOfWord w).slot :=
      fun j hj => (hrings.slot j).trans (keepsOtherSlots_setLease s _ _ j hj)
    exact ⟨_, hexec, hslot, hother, hrings.keepsBudget, hrings.keepsQueue, hrings.keepsRails, hrings.keepsTiers,
      hrings.keepsOwners, hrings.keepsService, hrings.keepsClock, hfin⟩

end Sys2Proof.Machine

/-! PROOFS. Service states and configuration: START_SERVICE (R187) and IDENT (R180). -/

namespace Sys2Proof.Machine

/-! ### What keeps commands, leases and tenant states -/

theorem OnlyRings.anyLive {s u : State} (h : OnlyRings s u) : u.anyLive = s.anyLive :=
  (congrArg State.anyLive h.eq).trans rfl

/-- A taken command is read from the tenants and contexts alone. -/
theorem SameRings.holds {s u : State} {t : TenantId} {c : CtxId} {cmd : Command} (h : SameRings s u)
    (H : s.Holds t c cmd) : u.Holds t c cmd := by
  obtain ⟨htaken, hhears⟩ := H
  constructor
  · simpa only [State.takenCommand, State.findContext, h.context] using htaken
  · rwa [h.tenant]

theorem Tenant.withMarks_state (x : Tenant) (n : TenantId) (marks : List (TenantId × Subject × Reason)) :
    (x.withMarks n marks).state = x.state := by
  unfold Tenant.withMarks
  split <;> rfl

/-- The end of a command opens, closes and breaks no tenant (R154, R169). -/
theorem Finishes.tenant_state {s u : State} {t : TenantId} {c : CtxId} {status : Status} {detail : Detail}
    {handle : Option Handle} {charge : Nat} {marks : List (TenantId × Subject × Reason)}
    (h : Finishes s u t c status detail handle charge marks) (n : TenantId) :
    (u.tenant n).state = (s.tenant n).state := by
  obtain ⟨x, -, -, -, hself, hothers, -⟩ := h
  by_cases hn : n = t
  · rw [hn, hself]
  · rw [hothers n hn, Tenant.withMarks_state]

/-! ### EMERGENCY_STOP with no live lease (R186, R189) -/

/-- What the end of the drain leaves is all that a happening ends while no tenant is CLOSING. -/
theorem endings_eq_drainEnd (h : Happening) (hs : h.drainEnd.st.service.isDraining = false)
    (hn : ∀ n, (h.drainEnd.st.tenant n).state ≠ .closing) : h.endings = h.drainEnd := by
  have hidle : h.drainEnd.drainEnd = h.drainEnd := by
    generalize h.drainEnd = k at hs
    unfold Happening.drainEnd
    split
    · next hd => rw [hd] at hs; cases hs
    · rfl
  calc h.endings = h.drainEnd.endings := by simp only [Happening.endings, hidle]
    _ = h.drainEnd := endings_of_no_closing _ hs hn

/-- With no live lease, stopping every lease ends the drain in its own happening, which meets one open point (log entry 8). -/
theorem settle_stopAll_of_empty {s : State} {reason : DrainReason} (cause : StopCause)
    (hs : s.service = .draining reason false) (hl : s.anyLive = false) (hn : ∀ n, (s.tenant n).state ≠ .closing) :
    (s.begin.stopAll cause fun _ => true).checked.settle = { s.chosen with service := .configuring } := by
  have hstop : s.begin.stopAll cause (fun _ => true) = s.begin.map State.chosen :=
    stopAll_of_none _ _ _ fun i l hi => by simp [not_live_of_not_anyLive hl i l hi]
  have hdrain : (s.begin.map State.chosen).checked.drainEnd =
      (s.begin.map State.chosen).checked.map fun s => { s with service := .configuring } :=
    drainEnd_alone _ reason hs hl
  have hend := endings_eq_drainEnd (s.begin.map State.chosen).checked (by rw [hdrain]; rfl) (by rw [hdrain]; exact hn)
  rw [hstop, settle_of_check _ rfl rfl, hend, hdrain]
  rfl

theorem emergency_of_empty {s : State} (hw : s.service.waiting = false) (hl : s.anyLive = false)
    (hn : ∀ n, (s.tenant n).state ≠ .closing) : s.emergency = { s.chosen with service := .configuring } := by
  rw [State.emergency, hw]
  exact settle_stopAll_of_empty (s := { s with service := .draining .emergency false }) .emergency rfl hl hn

/-- The state after an EMERGENCY_STOP taken with no live lease and no waiting STOP_SERVICE. -/
def State.emergencyOver (s : State) : State :=
  { (s.recordAction .emergencyStop .done).chosen with service := .configuring }

theorem sameRings_emergencyOver (s : State) : SameRings s s.emergencyOver := ⟨rfl, rfl, rfl⟩

theorem exec_emergencyStop_of_empty {s : State} (ho : s.openable = true) (hw : s.service.waiting = false)
    (hl : s.anyLive = false) (hn : ∀ n, (s.tenant n).state ≠ .closing) :
    exec .emergencyStop s = .next s.emergencyOver := by
  show Host.Outcome.next (emergencyStop s) = _
  rw [emergencyStop, if_pos ho, emergency_of_empty (s := s.recordAction .emergencyStop .done) hw hl hn]
  rfl

/-! ### START_SERVICE (R187) -/

theorem exec_startService {s : State} {c : CtxId} (h : s.takenCommand admin = some (c, .startService)) :
    exec .startService s = .next (s.startServiceBody c) := by
  show Host.Outcome.next (startService s) = _
  simp only [startService, h]

/-- A START_SERVICE in CONFIGURING finishes OK with no marker; beside that it writes the service state alone. -/
theorem startServiceBody_finishes {s : State} {c : CtxId} (H : s.Holds admin c .startService)
    (hs : s.service = .configuring) :
    Finishes s (s.startServiceBody c) admin c .ok .none none 0 [] ∧
      OnlyRings { s with service := .serving } (s.startServiceBody c) := by
  rw [State.startServiceBody, if_pos hs]
  exact answered s (s.begin.map fun s => { s with service := .serving }) admin c _ H ⟨rfl, rfl, rfl⟩ rfl rfl
    (fun h => nomatch h) (fun h => nomatch h) .ok .none none 0

theorem startServiceBody_refused {s : State} {c : CtxId} (H : s.Holds admin c .startService)
    (hs : s.service ≠ .configuring) :
    Finishes s (s.startServiceBody c) admin c .notServing .none none 0 [] ∧
      OnlyRings s (s.startServiceBody c) := by
  rw [State.startServiceBody, if_neg hs]
  exact refuse_finishes s admin c _ H .notServing .none

/-- START_SERVICE first: the emergency finds SERVING with no live lease, and returns to CONFIGURING. -/
theorem emergencyStop_after_startService {s : State} {c : CtxId} (H : s.Holds admin c .startService)
    (hs : s.service = .configuring) (hl : s.anyLive = false) (hn : ∀ n, (s.tenant n).state ≠ .closing) :
    ∃ u v, exec .startService s = .next u ∧ u.service = .serving ∧ exec .emergencyStop u = .next v ∧
      v.service = .configuring := by
  obtain ⟨hfin, hrings⟩ := startServiceBody_finishes H hs
  have hserving : (s.startServiceBody c).service = .serving := hrings.service
  have hopen : (s.startServiceBody c).openable = true := by rw [State.openable, hserving]
  have hwait : (s.startServiceBody c).service.waiting = false := by rw [hserving]; rfl
  have hclosing : ∀ n, ((s.startServiceBody c).tenant n).state ≠ .closing := fun n =>
    hfin.tenant_state n ▸ hn n
  exact ⟨_, _, exec_startService H.1, hserving,
    exec_emergencyStop_of_empty hopen hwait (hrings.anyLive.trans hl) hclosing, rfl⟩

/-- The emergency first: it returns to CONFIGURING, where the START_SERVICE, still taken, succeeds. -/
theorem startService_after_emergencyStop {s : State} {c : CtxId} (H : s.Holds admin c .startService)
    (hs : s.service = .configuring) (hl : s.anyLive = false) (hn : ∀ n, (s.tenant n).state ≠ .closing) :
    ∃ u v, exec .emergencyStop s = .next u ∧ u.service = .configuring ∧ exec .startService u = .next v ∧
      v.service = .serving := by
  have hopen : s.openable = true := by rw [State.openable, hs]
  have hwait : s.service.waiting = false := by rw [hs]; rfl
  have Hover := (sameRings_emergencyOver s).holds H
  obtain ⟨-, hrings⟩ := startServiceBody_finishes Hover rfl
  exact ⟨_, _, exec_emergencyStop_of_empty hopen hwait hl hn, rfl, exec_startService Hover.1, hrings.service⟩

/-- Settles O40: in CONFIGURING the command writes the service state and finishes, elsewhere it only finishes, and an emergency
on either side of it finds a table with no live lease. -/
theorem startServiceServes : Obligations.StartServiceServes := by
  intro s c H
  have hexec := exec_startService H.1
  refine ⟨fun hs => ?_, fun hs => ?_, fun hs hl hn =>
    ⟨emergencyStop_after_startService H hs hl hn, startService_after_emergencyStop H hs hl hn⟩⟩
  · obtain ⟨hfin, hrings⟩ := startServiceBody_finishes H hs
    exact ⟨_, hexec, hrings.service, hrings.controlRead, hrings.descriptorBase, hrings.lastAction, hrings.outcome,
      hrings.startError, hrings.keepsLeases, hrings.keepsBudget, hrings.keepsQueue, hrings.keepsRails, hrings.keepsTiers,
      hrings.keepsOwners, hrings.keepsClock, hfin⟩
  · obtain ⟨hfin, hrings⟩ := startServiceBody_refused H hs
    exact ⟨_, hexec, hrings.keepsLeases, hrings.keepsBudget, hrings.keepsQueue, hrings.keepsRails, hrings.keepsTiers,
      hrings.keepsOwners, hrings.keepsService, hrings.keepsClock, hfin⟩

/-! ### IDENT (R180) -/

theorem readRegister_ident (s : State) : s.readRegister 0 .w64 = some identWord := by
  simp [State.readRegister, State.registerAt, AccessWidth.bytes]

/-- The fields of IDENT do not overlap, so joining them is adding them. -/
theorem identWord_eq_sum : identWord =
    BitVec.ofNat 64 (0x1216 + 0x6D * 2 ^ 16 + 1 * 2 ^ 24 + 12 * 2 ^ 32 + 16 * 2 ^ 40 + 24 * 2 ^ 48 + 8 * 2 ^ 56 +
      3 * 2 ^ 60 + 3 * 2 ^ 62) := by decide

/-- An aligned write inside the window that reaches neither CONTROL, DESCRIPTOR_BASE nor a TENANT_SIGNAL is the ignored one
(R199). -/
theorem decodeRegisterWrite_of_ineffective {offset : Nat} {width : AccessWidth} (v : BitVec 64)
    (hin : offset < 0x5000) (halign : offset % width.bytes = 0) (hcontrol : offset ≠ 0x010)
    (hbase : offset ≠ 0x018 ∧ offset ≠ 0x01C) (hsignal : signalTenant offset = none) :
    decodeRegisterWrite offset width v = some (.ignoredRegisterWrite offset v) := by
  have haccess : ¬(0x5000 ≤ offset ∨ offset % width.bytes ≠ 0) := by omega
  obtain ⟨hlower, hupper⟩ := hbase
  simp only [decodeRegisterWrite, if_neg haccess, if_neg hcontrol, if_neg hlower, if_neg hupper, hsignal]

theorem exec_ignoredRegisterWrite (offset : Nat) (v : BitVec 64) (s : State) :
    exec (.ignoredRegisterWrite offset v) s = .next s := rfl

/-- Settles O10: IDENT reads a constant word, and a write to either of its halves decodes to the write without effect. -/
theorem identIsConstant : Obligations.IdentIsConstant := by
  intro s v
  refine ⟨identWord_eq_sum ▸ readRegister_ident s, ?_, ?_, ?_, fun offset => exec_ignoredRegisterWrite offset v s⟩
  all_goals
    exact decodeRegisterWrite_of_ineffective v (by decide) (by decide) (by decide) (by decide) (by decide)

end Sys2Proof.Machine

/-! PROOFS. The five laws that every happening keeps: what the shared operations do to the form of the deferred queue (R76, R79). -/

namespace Sys2Proof.Machine

/-! ### Writes of the queue -/

theorem queueInv_of_queue_eq {s u : State} (h : u.queue = s.queue) (q : QueueInv s) : QueueInv u := by
  unfold QueueInv
  rw [h]
  exact q

theorem queueInv_of_sublist {s u : State} (h : u.queue.Sublist s.queue) (q : QueueInv s) : QueueInv u := by
  obtain ⟨hlen, hcount, horder⟩ := q
  exact ⟨h.length_le.trans hlen, fun e he => hcount e (h.subset he), horder.sublist h⟩

theorem removeEntry_queueInv {s : State} (x : Handle) (q : QueueInv s) : QueueInv (s.removeEntry x) :=
  queueInv_of_sublist List.filter_sublist q

theorem QueueEntry.passed_isRestore (e : QueueEntry) : e.passed.isRestore = e.isRestore := by
  unfold QueueEntry.passed
  split
  · rfl
  · next d n h => simp [QueueEntry.isRestore, h]

/-- A pass count that rises stays within its field (R76, R77). -/
theorem QueueEntry.passed_passCount_le {e : QueueEntry} (h : e.passCount ≤ 15) : e.passed.passCount ≤ 15 := by
  unfold QueueEntry.passed
  split
  · exact h
  · simp only [QueueEntry.passCount]
    omega

/-- Pass counts may rise anywhere in the queue. -/
theorem queueInv_map {s u : State} (f : QueueEntry → QueueEntry) (hf : ∀ e, f e = e ∨ f e = e.passed)
    (h : u.queue = s.queue.map f) (q : QueueInv s) : QueueInv u := by
  have hkind : ∀ e, (f e).isRestore = e.isRestore := by
    intro e
    obtain h | h := hf e
    · rw [h]
    · rw [h, QueueEntry.passed_isRestore]
  obtain ⟨hlen, hcount, horder⟩ := q
  unfold QueueInv
  rw [h]
  refine ⟨by simpa using hlen, ?_, ?_⟩
  · intro e he
    obtain ⟨d, hd, rfl⟩ := List.mem_map.mp he
    obtain h | h := hf d
    · rw [h]
      exact hcount d hd
    · rw [h]
      exact QueueEntry.passed_passCount_le (hcount d hd)
  · rw [List.pairwise_map]
    simpa only [hkind] using horder

theorem passSkipped_queueInv {s : State} (skipped : List Handle) (q : QueueInv s) : QueueInv (s.passSkipped skipped) := by
  refine queueInv_map (fun e => if e.handle ∈ skipped then e.passed else e) ?_ rfl q
  intro e
  by_cases h : e.handle ∈ skipped
  · exact Or.inr (if_pos h)
  · exact Or.inl (if_neg h)

/-- A CLAIM entry joins the tail of a queue with room (R46, R78). -/
theorem insertClaim_queueInv {s : State} (x : Handle) (d : Nat) (room : s.queue.length < 8) (q : QueueInv s) :
    QueueInv (s.insertClaim x d) := by
  obtain ⟨-, hcount, horder⟩ := q
  refine ⟨by simp only [State.insertClaim, List.length_append, List.length_singleton]; omega, ?_, ?_⟩
  · intro e he
    obtain he | he := List.mem_append.mp he
    · exact hcount e he
    · rw [List.mem_singleton.mp he]
      exact Nat.zero_le _
  · refine List.pairwise_append.mpr ⟨horder, List.pairwise_singleton _ _, ?_⟩
    intro a _ b hb
    rw [List.mem_singleton.mp hb]
    exact fun h => nomatch h

theorem isRestore_of_mem_takeWhile {s : State} {cls : Nat} {q : List QueueEntry} {e : QueueEntry}
    (h : e ∈ q.takeWhile (s.before cls)) : e.isRestore = true := by
  have hbefore := List.mem_takeWhile_imp h
  simp only [State.before, Bool.and_eq_true] at hbefore
  exact hbefore.1

/-- A RESTORE entry is inserted behind RESTORE entries alone (R78, R80). -/
theorem insertRestore_queueInv {s : State} (x : Handle) (cls : Nat) (room : s.queue.length < 8) (q : QueueInv s) :
    QueueInv (s.insertRestore x cls) := by
  obtain ⟨-, hcount, horder⟩ := q
  have hsplit : s.queue.takeWhile (s.before cls) ++ s.queue.dropWhile (s.before cls) = s.queue :=
    List.takeWhile_append_dropWhile
  have hlen := congrArg List.length hsplit
  rw [List.length_append] at hlen
  refine ⟨by simp only [State.insertRestore, List.length_append, List.length_cons]; omega, ?_, ?_⟩
  · intro e he
    obtain he | he := List.mem_append.mp he
    · exact hcount e ((List.takeWhile_sublist _).subset he)
    · obtain rfl | he := List.mem_cons.mp he
      · exact Nat.zero_le _
      · exact hcount e ((List.dropWhile_sublist _).subset he)
  · refine List.pairwise_append.mpr ⟨horder.sublist (List.takeWhile_sublist _), ?_, ?_⟩
    · exact List.pairwise_cons.mpr ⟨fun _ _ _ => rfl, horder.sublist (List.dropWhile_sublist _)⟩
    · exact fun a ha _ _ _ => isRestore_of_mem_takeWhile ha

theorem room_of_restoreRoom {s : State} (h : s.restoreRoom = true) : s.queue.length < 8 := by
  simp only [State.restoreRoom, decide_eq_true_eq] at h
  exact h.1

/-! ### Rails leave the queue alone -/

theorem enterRising_queue (s : State) (r : RailId) (v c : Nat) : (s.enterRising r v c).queue = s.queue := by
  unfold State.enterRising
  split <;> rfl

theorem enterSlewing_queue (s : State) (r : RailId) (v : Nat) : (s.enterSlewing r v).queue = s.queue := by
  unfold State.enterSlewing
  split <;> rfl

theorem enterFalling_queue (s : State) (r : RailId) : (s.enterFalling r).queue = s.queue := (keepsTable_enterFalling s r).2.1

theorem fallAll_queue (s : State) (ms : List Member) : (s.fallAll ms).queue = s.queue := (keepsTable_fallAll s ms).2.1

theorem setMemberships_queue (s : State) (ms : List Member) (x : Option Handle) : (s.setMemberships ms x).queue = s.queue :=
  (keepsTable_setMemberships s ms x).2.1

/-! ### The lease engine -/

namespace Happening

theorem raiseMember_queue (h : Happening) (l : Lease) (k : Nat) : (h.raiseMember l k).st.queue = h.st.queue := by
  unfold raiseMember
  split
  · exact enterRising_queue _ _ _ _
  · rfl

theorem stepOver_queue (h : Happening) (i : SlotId) (l : Lease) (k : Nat) : (h.stepOver i l k).st.queue = h.st.queue := by
  unfold stepOver
  split
  · exact raiseMember_queue _ _ _
  · rfl

theorem creditFall_queue (h : Happening) (t : TenantId) (a b : Nat) : (h.creditFall t a b).st.queue = h.st.queue := by
  unfold creditFall
  split <;> rfl

theorem endLease_queueInv {h : Happening} (i : SlotId) (l : Lease) (r : EndReason) (q : QueueInv h.st) :
    QueueInv (h.endLease i l r).st := by
  obtain ⟨-, hq, -⟩ := endLease_effect h i l r
  refine queueInv_of_sublist ?_ q
  rw [hq]
  split
  · exact List.filter_sublist
  · exact List.Sublist.refl _

theorem enterSuspended_queueInv {h : Happening} (i : SlotId) (l : Lease) (room : h.st.queue.length < 8) (q : QueueInv h.st) :
    QueueInv (h.enterSuspended i l).st :=
  insertRestore_queueInv (h.st.handleOf i) l.cls room q

/-- A stop ends in SUSPENDED only where the queue has room for its RESTORE entry (R80, R130). -/
theorem room_of_suspend {s : State} {l : Lease} {stop : StopRecord} (h : s.stopOutcome l stop = .suspend) :
    s.queue.length < 8 := by
  unfold State.stopOutcome at h
  simp only at h
  split at h
  · split at h
    · cases h
    · split at h
      · cases h
      · split at h <;> cases h
  · split at h
    · cases h
    · split at h
      · next hr =>
        simp only [Bool.and_eq_true] at hr
        exact room_of_restoreRoom hr.2
      · split at h <;> cases h

theorem settleStop_queueInv {h : Happening} (i : SlotId) (l : Lease) (stop : StopRecord) (q : QueueInv h.st) :
    QueueInv (h.settleStop i l stop).st := by
  unfold settleStop
  split
  · exact q
  · next ho =>
    have hsuspended : QueueInv ((h.map fun s => s.creditHeld l.tenant l.charge).risen.enterSuspended i l).st :=
      enterSuspended_queueInv i l (room_of_suspend ho) q
    simp only
    split
    · split
      · exact endLease_queueInv _ _ _ hsuspended
      · exact hsuspended
    · exact hsuspended
  · exact endLease_queueInv _ _ _ q

theorem takeTurn_queueInv {h : Happening} (i : SlotId) (l : Lease) (stop : StopRecord) (q : QueueInv h.st) :
    QueueInv (h.takeTurn i l stop).st :=
  queueInv_of_queue_eq (takeTurn_effect h i l stop).2.1 q

theorem beginStop_queueInv {h : Happening} (i : SlotId) (l : Lease) (stop : StopRecord) (q : QueueInv h.st) :
    QueueInv (h.beginStop i l stop).st := by
  unfold beginStop
  split
  · exact settleStop_queueInv _ _ _ q
  · split
    · exact takeTurn_queueInv _ _ _ q
    · exact queueInv_of_queue_eq (fallAll_queue _ _) q

theorem stopLease_queueInv {h : Happening} (i : SlotId) (l : Lease) (cause : StopCause) (f : Option (RailId × FaultKind))
    (q : QueueInv h.st) : QueueInv (h.stopLease i l cause f).st := by
  have hcredit : QueueInv (h.creditFall l.tenant l.charge (l.resolved cause).charge).st :=
    queueInv_of_queue_eq (creditFall_queue _ _ _ _) q
  unfold stopLease
  simp only
  split
  · exact beginStop_queueInv _ _ _ hcredit
  · exact hcredit

theorem unsequence_queueInv {h : Happening} (i : SlotId) (l : Lease) (stop : StopRecord) (q : QueueInv h.st) :
    QueueInv (h.unsequence i l stop).st :=
  queueInv_of_queue_eq (fallAll_queue _ _) q

theorem stopCause_queueInv {h : Happening} (i : SlotId) (l : Lease) (cause : StopCause) (q : QueueInv h.st) :
    QueueInv (h.stopCause i l cause).st := by
  unfold stopCause
  split
  case h_7 =>
    split
    · exact unsequence_queueInv _ _ _ q
    · exact q
  case h_8 => exact q
  case h_1 | h_2 | h_3 => exact endLease_queueInv _ _ _ q
  case h_4 | h_5 | h_6 => exact stopLease_queueInv _ _ _ _ q

theorem shed_queueInv {h : Happening} (v : Handle) (q : QueueInv h.st) : QueueInv (h.shed v).st := by
  unfold shed
  split
  · split
    · split
      · next hr =>
        rw [Bool.and_eq_true] at hr
        exact enterSuspended_queueInv _ _ (room_of_restoreRoom hr.2) q
      · exact endLease_queueInv _ _ _ q
    · exact stopLease_queueInv _ _ _ _ q
    · exact stopLease_queueInv _ _ _ _ q
    · exact stopLease_queueInv _ _ _ _ q
    · exact q
  · exact q

theorem shedWhile_queueInv (n : Nat) {h : Happening} (q : QueueInv h.st) : QueueInv (shedWhile n h).st := by
  induction n generalizing h with
  | zero => exact q
  | succ n ih =>
    unfold shedWhile
    split
    · split
      · exact ih (shed_queueInv _ q)
      · exact q
    · exact q

theorem shedPass_queueInv {h : Happening} (q : QueueInv h.st) : QueueInv h.shedPass.st := shedWhile_queueInv _ q

theorem lapsePassed_queueInv {h : Happening} (i : SlotId) (q : QueueInv h.st) : QueueInv (h.lapsePassed i).st := by
  unfold lapsePassed
  split
  · split
    · exact stopCause_queueInv _ _ _ q
    · exact q
  · exact q

theorem lapseAndShed_queueInv {h : Happening} (i : SlotId) (q : QueueInv h.st) : QueueInv (h.lapseAndShed i).st := by
  have hchosen : QueueInv (h.map State.chosen).st := q
  unfold lapseAndShed
  simp only
  split
  · exact shedPass_queueInv (lapsePassed_queueInv _ hchosen)
  · exact lapsePassed_queueInv _ (shedPass_queueInv hchosen)

theorem completeStop_queueInv {h : Happening} (i : SlotId) (l : Lease) (stop : StopRecord) (q : QueueInv h.st) :
    QueueInv (h.completeStop i l stop).st := by
  have hsettled := settleStop_queueInv i l stop q
  unfold completeStop
  simp only
  split
  · split
    · exact lapseAndShed_queueInv _ hsettled
    · exact shedPass_queueInv hsettled
  · exact hsettled

theorem railDown_queueInv {h : Happening} (r : RailId) (q : QueueInv h.st) : QueueInv (h.railDown r).st := by
  unfold railDown
  split
  · split
    · split
      · exact completeStop_queueInv _ _ _ q
      · split
        · split
          · exact takeTurn_queueInv _ _ _ q
          · exact q
        · exact q
    · exact q
  · exact q

theorem faultLease_queueInv {h : Happening} (r : RailId) (k : FaultKind) (q : QueueInv h.st) :
    QueueInv (h.faultLease r k).st := by
  unfold faultLease
  split
  · split
    · exact stopLease_queueInv _ _ _ _ q
    · exact stopLease_queueInv _ _ _ _ q
    · exact stopLease_queueInv _ _ _ _ q
    · exact q
    · exact q
  · exact q

/-! ### The end of a happening -/

theorem answer_queue (h : Happening) (c : CtxId) (a : Status) (d : Detail) (x : Option Handle) (n : Nat) :
    (h.answer c a d x n).st.queue = h.st.queue :=
  (onlyRings_answer h c a d x n).queue

theorem reply_queue (h : Happening) (c : CtxId) (a : Status) : (h.reply c a).st.queue = h.st.queue := answer_queue _ _ _ _ _ _

theorem grantEntry_queueInv {h : Happening} (e : QueueEntry) (l : Lease) (skipped : List Handle) (q : QueueInv h.st) :
    QueueInv (h.grantEntry e l skipped).st := by
  refine queueInv_of_queue_eq (raiseMember_queue _ _ _) ?_
  exact passSkipped_queueInv (s := (((h.map fun s => s.removeEntry e.handle).changeLease e.handle.slot
    { l with state := .starting (.rising 0) } .starting).st.charge l.tenant l.charge).joinList e.handle) skipped
    (removeEntry_queueInv e.handle q)

theorem walk_queueInv {h : Happening} (skipped : List Handle) (entries : List QueueEntry) (q : QueueInv h.st) :
    QueueInv (h.walk skipped entries).st := by
  induction entries generalizing h skipped with
  | nil => exact q
  | cons e rest ih =>
    unfold walk
    split
    · next l _ =>
      split
      · have hgranted := grantEntry_queueInv e l skipped q
        simp only
        split
        · exact hgranted
        · exact ih _ hgranted
      · split
        · exact q
        · exact ih _ q
    · exact ih _ q

theorem scan_queueInv {h : Happening} (q : QueueInv h.st) : QueueInv h.scan.st := walk_queueInv _ _ q

theorem drainEnd_queue (h : Happening) : h.drainEnd.st.queue = h.st.queue := by
  unfold drainEnd
  split
  · split
    · rfl
    · simp only
      split
      · split
        · rw [reply_queue, map_st]
        · rw [map_st]
      · rw [map_st]
  · rfl

theorem endings_queue (h : Happening) : h.endings.st.queue = h.st.queue := by
  unfold endings
  rw [(onlyRings_teardowns h.drainEnd _).queue, drainEnd_queue]

theorem settle_queueInv {h : Happening} (q : QueueInv h.st) : QueueInv h.settle := by
  have hscan : QueueInv (if h.rise then h.scan else h).st := by
    split
    · exact scan_queueInv q
    · exact q
  unfold settle
  generalize (if h.rise then h.scan else h) = g at hscan
  have hend : QueueInv (if g.check then g.endings else g).st := by
    split
    · exact queueInv_of_queue_eq (endings_queue g) hscan
    · exact hscan
  exact queueInv_of_queue_eq (flush_effect _).1 hend

theorem stopSlot_queueInv {h : Happening} (cause : StopCause) (p : Lease → Bool) (i : SlotId) (q : QueueInv h.st) :
    QueueInv (stopSlot cause p h i).st := by
  unfold stopSlot
  split
  · split
    · exact stopCause_queueInv _ _ _ q
    · exact q
  · exact q

theorem stopAll_queueInv {h : Happening} (cause : StopCause) (p : Lease → Bool) (q : QueueInv h.st) :
    QueueInv (h.stopAll cause p).st := by
  have hloop : ∀ (is : List SlotId) (g : Happening), QueueInv g.st → QueueInv (is.foldl (stopSlot cause p) g).st := by
    intro is
    induction is with
    | nil => exact fun g hg => hg
    | cons i is ih => exact fun g hg => ih _ (stopSlot_queueInv cause p i hg)
  exact hloop _ _ q

end Happening

end Sys2Proof.Machine

/-! PROOFS. The five laws that every happening keeps: one relation for all five, and what each shared operation does to it. -/

namespace Sys2Proof.Machine

/-! ### The relation -/

/-- What leads from one state to another keeps each of the five laws that happenings keep by themselves. -/
structure KeepsLaws (s u : State) : Prop where
  config : ConfigInv s → ConfigInv u
  tier   : TierInv s → TierInv u
  offer  : OfferInv s → OfferInv u
  marker : MarkerInv s → MarkerInv u
  queue  : QueueInv s → QueueInv u

namespace KeepsLaws

theorem refl (s : State) : KeepsLaws s s := ⟨id, id, id, id, id⟩

theorem trans {s u v : State} (h : KeepsLaws s u) (k : KeepsLaws u v) : KeepsLaws s v :=
  ⟨k.config ∘ h.config, k.tier ∘ h.tier, k.offer ∘ h.offer, k.marker ∘ h.marker, k.queue ∘ h.queue⟩

/-- The same, with the later part first. -/
theorem trans' {s u v : State} (k : KeepsLaws u v) (h : KeepsLaws s u) : KeepsLaws s v := h.trans k

theorem atDeadline {s u : State} (d : Nat) (h : KeepsLaws s u) : KeepsLaws s (s.atDeadline d u) :=
  State.atDeadline_keeps (refl s) h

/-- A fold of steps that each keep the laws keeps them. -/
theorem foldl {α : Type} (f : Happening → α → Happening) (hf : ∀ h a, KeepsLaws h.st (f h a).st) (as : List α) (h : Happening) :
    KeepsLaws h.st (as.foldl f h).st := by
  induction as generalizing h with
  | nil => exact refl _
  | cons a as ih => exact (hf h a).trans (ih _)

end KeepsLaws

/-! ### The parts of the laws -/

theorem configInv_of_parts {s u : State} (hs : u.setup = s.setup) (hg : ∀ i, (u.slot i).gen ≠ 0)
    (hc : ∀ r, (u.faultRecord r).count ≤ 15) (c : ConfigInv s) : ConfigInv u where
  generation := hg
  feed f := by
    rw [show u.feed f = s.feed f from congrArg (vget · f) (setup_feeds hs)]
    exact c.feed f
  margin := (setup_margin hs).symm ▸ c.margin
  account t := by
    obtain ⟨hquota, hclass⟩ := setup_account hs t
    rw [hquota, hclass]
    exact c.account t
  policy := by
    rw [setup_passLimit hs, setup_defaultWait hs]
    exact c.policy
  rail r := by
    rw [show u.config r = s.config r from congrArg (vget · r) (setup_railConfig hs)]
    exact c.rail r
  fault := hc
  base := (setup_descriptorBase hs).symm ▸ c.base

theorem tierInv_of_setup {s u : State} (hs : u.setup = s.setup) (h : TierInv s) : TierInv u := by
  intro r
  rw [show u.tierList r = s.tierList r from congrArg (vget · r) (setup_tiers hs),
    show u.config r = s.config r from congrArg (vget · r) (setup_railConfig hs)]
  exact h r

theorem offerInv_of_setup {s u : State} (hs : u.setup = s.setup) (h : OfferInv s) : OfferInv u := by
  intro r o ho
  rw [show u.owned r = s.owned r from congrArg (vget · r) (setup_ownership hs)] at ho ⊢
  exact h r o ho

/-- What leaves setup, generations, outbound queues and fault counts alone keeps the laws with the queue's form. -/
theorem keepsLaws_of_quiet {s u : State} (hs : u.setup = s.setup) (hh : u.held = s.held) (hc : u.counts = s.counts)
    (hq : QueueInv s → QueueInv u) : KeepsLaws s u where
  config c :=
    configInv_of_parts hs (fun i => held_gen hh i ▸ c.generation i) (fun r => counts_count hc r ▸ c.fault r) c
  tier := tierInv_of_setup hs
  offer := offerInv_of_setup hs
  marker h t := held_box hh t ▸ h t
  queue := hq

/-- A change of tenants and contexts alone keeps every law but that of the markers. -/
theorem keepsLaws_of_rings {s u : State} (h : OnlyRings s u) (hm : MarkerInv s → MarkerInv u) : KeepsLaws s u where
  config c :=
    { generation := fun i => h.slot i ▸ c.generation i
      feed := fun f => h.feed f ▸ c.feed f
      margin := h.margin ▸ c.margin
      account := fun t => h.account t ▸ c.account t
      policy := by rw [h.passLimit, h.defaultWait]; exact c.policy
      rail := fun r => h.config r ▸ c.rail r
      fault := fun r => h.faultRecord r ▸ c.fault r
      base := h.descriptorBase ▸ c.base }
  tier k r := by rw [h.tierList, h.config]; exact k r
  offer k r := by rw [h.owned]; exact k r
  marker := hm
  queue := queueInv_of_queue_eq h.queue

theorem keepsLaws_of_rings_held {s u : State} (h : OnlyRings s u) (hh : u.held = s.held) : KeepsLaws s u :=
  keepsLaws_of_rings h fun k t => held_box hh t ▸ k t

/-! ### Outbound queues -/

theorem markerInv_setTenant {s : State} {t : TenantId} {x : Tenant}
    (hx : ((s.tenant t).outbound.filterMap OutEntry.subject?).Nodup → (x.outbound.filterMap OutEntry.subject?).Nodup)
    (h : MarkerInv s) : MarkerInv (s.setTenant t x) := by
  intro n
  rw [State.tenant_setTenant]
  split
  · exact hx (h t)
  · exact h n

theorem setTenant_keepsLaws {s : State} {t : TenantId} {x : Tenant}
    (hx : ((s.tenant t).outbound.filterMap OutEntry.subject?).Nodup → (x.outbound.filterMap OutEntry.subject?).Nodup) :
    KeepsLaws s (s.setTenant t x) :=
  keepsLaws_of_rings (onlyRings_setTenant s t x) (markerInv_setTenant hx)

theorem OutEntry.isMarker_iff (x : Subject) (e : OutEntry) : e.isMarker x = true ↔ e.subject? = some x := by
  cases e <;> simp [OutEntry.isMarker, OutEntry.subject?]

/-- A marker joins the tail only where its subject has none, so subjects stay distinct (R170). -/
theorem addMarker_nodup (x : Subject) (reason : Reason) {q : List OutEntry} (h : (q.filterMap OutEntry.subject?).Nodup) :
    ((addMarker x reason q).filterMap OutEntry.subject?).Nodup := by
  unfold addMarker
  split
  · have hsame : ∀ e : OutEntry, (if e.isMarker x then OutEntry.marker x reason else e).subject? = e.subject? := by
      intro e
      split
      · next he => exact ((OutEntry.isMarker_iff x e).mp he).symm
      · rfl
    rw [List.filterMap_map]
    simpa only [Function.comp_def, hsame] using h
  · next hnone =>
    have hx : x ∉ q.filterMap OutEntry.subject? := by
      intro hx
      obtain ⟨e, he, hs⟩ := List.mem_filterMap.mp hx
      exact hnone (List.any_eq_true.mpr ⟨e, he, (OutEntry.isMarker_iff x e).mpr hs⟩)
    rw [List.filterMap_append]
    exact List.nodup_append.mpr
      ⟨h, List.nodup_singleton _, fun a ha b hb e => hx (List.mem_singleton.mp hb ▸ e ▸ ha)⟩

theorem freeContext_keepsLaws (s : State) (c : CtxId) : KeepsLaws s (s.freeContext c) :=
  keepsLaws_of_rings_held (onlyRings_freeContext s c) (held_freeContext s c)

theorem postCompletion_keepsLaws (s : State) (t : TenantId) (c : Completion) : KeepsLaws s (s.postCompletion t c) := by
  unfold State.postCompletion
  split
  · refine setTenant_keepsLaws fun h => ?_
    have hnone : [OutEntry.completion c].filterMap OutEntry.subject? = [] := rfl
    rwa [List.filterMap_append, hnone, List.append_nil]
  · exact freeContext_keepsLaws s _

theorem postMarker_keepsLaws (s : State) (t : TenantId) (x : Subject) (reason : Reason) :
    KeepsLaws s (s.postMarker t x reason) := by
  unfold State.postMarker
  split
  · exact setTenant_keepsLaws fun h => addMarker_nodup x reason h
  · exact .refl s

/-! ### The end of a happening -/

theorem freeEnded_keepsLaws (s : State) (i : SlotId) : KeepsLaws s (s.freeEnded i) := by
  unfold State.freeEnded
  split
  · split
    · refine ⟨fun c => { c with generation := fun j => ?_ }, id, id, id, id⟩
      rw [State.slot_setSlot]
      split
      · exact nextGen_ne_zero _
      · exact c.generation j
    · exact .refl s
  · exact .refl s

theorem flush_keepsLaws (h : Happening) : KeepsLaws h.st h.flush := by
  have hposts : ∀ (as : List (TenantId × Completion)) (s : State),
      KeepsLaws s (as.foldl (fun s a => s.postCompletion a.1 a.2) s) := by
    intro as
    induction as with
    | nil => exact fun s => .refl s
    | cons a as ih => exact fun s => (postCompletion_keepsLaws s _ _).trans (ih _)
  have hmarks : ∀ (ms : List (TenantId × Subject × Reason)) (s : State),
      KeepsLaws s (ms.foldl (fun s m => s.postMarker m.1 m.2.1 m.2.2) s) := by
    intro ms
    induction ms with
    | nil => exact fun s => .refl s
    | cons m ms ih => exact fun s => (postMarker_keepsLaws s _ _ _).trans (ih _)
  have hfrees : ∀ (is : List SlotId) (s : State), KeepsLaws s (is.foldl State.freeEnded s) := by
    intro is
    induction is with
    | nil => exact fun s => .refl s
    | cons i is ih => exact fun s => (freeEnded_keepsLaws s i).trans (ih _)
  exact ((hposts h.answers _).trans (hmarks h.marks _)).trans (hfrees h.loose _)

/-- The end of a happening keeps the laws. -/
theorem settle_keepsLaws (h : Happening) : KeepsLaws h.st h.settle := by
  have hscan : KeepsLaws h.st (if h.rise then h.scan else h).st := by
    split
    · exact keepsLaws_of_quiet (by simp) (by simp) (by simp) Happening.scan_queueInv
    · exact .refl _
  unfold Happening.settle
  generalize (if h.rise then h.scan else h) = g at hscan
  have hend : KeepsLaws g.st (if g.check then g.endings else g).st := by
    split
    · exact keepsLaws_of_quiet (by simp) (by simp) (by simp) (queueInv_of_queue_eq (Happening.endings_queue g))
    · exact .refl _
  exact (hscan.trans hend).trans (flush_keepsLaws _)

theorem answer_keepsLaws (h : Happening) (c : CtxId) (a : Status) (d : Detail) (x : Option Handle) (n : Nat) :
    KeepsLaws h.st (h.answer c a d x n).st :=
  keepsLaws_of_rings_held (onlyRings_answer h c a d x n) (by simp)

/-- The end of a happening in which a command finishes keeps the laws. -/
theorem settle_answer_keepsLaws (h : Happening) (c : CtxId) (a : Status) (d : Detail) (x : Option Handle) (n : Nat) :
    KeepsLaws h.st (h.answer c a d x n).settle :=
  (answer_keepsLaws h c a d x n).trans (settle_keepsLaws _)

theorem settle_reply_keepsLaws (h : Happening) (c : CtxId) (a : Status) : KeepsLaws h.st (h.reply c a).settle :=
  settle_answer_keepsLaws h c a .none none 0

/-! What leads to the end of a happening leads to the state after it. -/

theorem KeepsLaws.settle {s : State} {h : Happening} (k : KeepsLaws s h.st) : KeepsLaws s h.settle :=
  k.trans (settle_keepsLaws h)

theorem KeepsLaws.answer {s : State} {h : Happening} (k : KeepsLaws s h.st) (c : CtxId) (a : Status) (d : Detail)
    (x : Option Handle) (n : Nat) : KeepsLaws s (h.answer c a d x n).settle :=
  k.trans (settle_answer_keepsLaws h c a d x n)

theorem KeepsLaws.reply {s : State} {h : Happening} (k : KeepsLaws s h.st) (c : CtxId) (a : Status) :
    KeepsLaws s (h.reply c a).settle :=
  k.trans (settle_reply_keepsLaws h c a)

theorem refuse_keepsLaws (s : State) (c : CtxId) (a : Status) (d : Detail) : KeepsLaws s (s.refuse c a d) :=
  settle_answer_keepsLaws s.begin c a d none 0

theorem setStage_keepsLaws (s : State) (c : CtxId) (x : Stage) : KeepsLaws s (s.setStage c x) :=
  keepsLaws_of_rings_held (onlyRings_setStage s c x) (by simp)

theorem beginReport_keepsLaws (s : State) (c : CtxId) (b : Nat) (report : List Byte) :
    KeepsLaws s (s.beginReport c b report) := by
  unfold State.beginReport
  split
  · exact setStage_keepsLaws _ _ _
  · exact refuse_keepsLaws _ _ _ _

end Sys2Proof.Machine

/-! PROOFS. The five laws that every happening keeps: the rows of the lease engine, the budget, the rails and the queue. -/

namespace Sys2Proof.Machine

/-! ### Operations on leases -/

namespace Happening

theorem map_keepsLaws {h : Happening} {f : State → State} (k : KeepsLaws h.st (f h.st)) : KeepsLaws h.st (h.map f).st := k

theorem stopCause_keepsLaws (h : Happening) (i : SlotId) (l : Lease) (cause : StopCause) :
    KeepsLaws h.st (h.stopCause i l cause).st :=
  keepsLaws_of_quiet (by simp) (by simp) (by simp) (stopCause_queueInv i l cause)

theorem endLease_keepsLaws (h : Happening) (i : SlotId) (l : Lease) (r : EndReason) : KeepsLaws h.st (h.endLease i l r).st :=
  keepsLaws_of_quiet (by simp) (by simp) (by simp) (endLease_queueInv i l r)

theorem putLease_keepsLaws (h : Happening) (i : SlotId) (l : Lease) : KeepsLaws h.st (h.putLease i l).st :=
  keepsLaws_of_quiet (by simp) (by simp) (by simp) id

theorem changeLease_keepsLaws (h : Happening) (i : SlotId) (l : Lease) (reason : Reason) :
    KeepsLaws h.st (h.changeLease i l reason).st :=
  putLease_keepsLaws h i _

theorem shedPass_keepsLaws (h : Happening) : KeepsLaws h.st h.shedPass.st :=
  keepsLaws_of_quiet (by simp) (by simp) (by simp) shedPass_queueInv

theorem raiseMember_keepsLaws (h : Happening) (l : Lease) (k : Nat) : KeepsLaws h.st (h.raiseMember l k).st :=
  keepsLaws_of_quiet (by simp) (by simp) (by simp) (queueInv_of_queue_eq (raiseMember_queue h l k))

theorem restart_keepsLaws (h : Happening) (i : SlotId) (l : Lease) : KeepsLaws h.st (h.restart i l).st :=
  keepsLaws_of_quiet (by simp) (by simp) (by simp) (queueInv_of_queue_eq (raiseMember_queue _ _ _))

theorem stepOver_keepsLaws (h : Happening) (i : SlotId) (l : Lease) (k : Nat) : KeepsLaws h.st (h.stepOver i l k).st :=
  keepsLaws_of_quiet (by simp) (by simp) (by simp) (queueInv_of_queue_eq (stepOver_queue h i l k))

theorem creditFall_keepsLaws (h : Happening) (t : TenantId) (a b : Nat) : KeepsLaws h.st (h.creditFall t a b).st :=
  keepsLaws_of_quiet (by simp) (by simp) (by simp) (queueInv_of_queue_eq (creditFall_queue h t a b))

theorem railDown_keepsLaws (h : Happening) (r : RailId) : KeepsLaws h.st (h.railDown r).st :=
  keepsLaws_of_quiet (by simp) (by simp) (by simp) (railDown_queueInv r)

theorem faultLease_keepsLaws (h : Happening) (r : RailId) (k : FaultKind) : KeepsLaws h.st (h.faultLease r k).st :=
  keepsLaws_of_quiet (by simp) (by simp) (by simp) (faultLease_queueInv r k)

theorem stopAll_keepsLaws (h : Happening) (cause : StopCause) (p : Lease → Bool) : KeepsLaws h.st (h.stopAll cause p).st :=
  keepsLaws_of_quiet (by simp) (by simp) (by simp) (stopAll_queueInv cause p)

end Happening

/-- A write of a fault record whose count is in range. -/
theorem setFaultRecord_keepsLaws {s : State} {r : RailId} {x : FaultRecord}
    (hx : (s.faultRecord r).count ≤ 15 → x.count ≤ 15) : KeepsLaws s (s.setFaultRecord r x) := by
  refine ⟨fun c => { c with fault := fun q => ?_ }, id, id, id, id⟩
  rw [State.faultRecord_setFaultRecord]
  split
  · exact hx (c.fault r)
  · exact c.fault q

theorem countFault_keepsLaws (s : State) (r : RailId) (k : FaultKind) : KeepsLaws s (s.countFault r k) :=
  setFaultRecord_keepsLaws fun _ => Nat.min_le_left _ _

theorem enterFalling_keepsLaws (s : State) (r : RailId) : KeepsLaws s (s.enterFalling r) :=
  keepsLaws_of_quiet (by simp) (by simp) (by simp) (queueInv_of_queue_eq (enterFalling_queue s r))

theorem enterOn_keepsLaws (s : State) (r : RailId) : KeepsLaws s (s.enterOn r) :=
  keepsLaws_of_quiet (by simp) (by simp) (by simp) id

theorem enterDown_keepsLaws (s : State) (r : RailId) (b : Bool) : KeepsLaws s (s.enterDown r b) :=
  keepsLaws_of_quiet (by simp) (by simp) (by simp) id

theorem fault_keepsLaws (h : Happening) (r : RailId) (k : FaultKind) : KeepsLaws h.st (h.fault r k).st :=
  (Happening.map_keepsLaws (f := fun s => (s.countFault r k).enterFalling r)
    ((countFault_keepsLaws h.st r k).trans (enterFalling_keepsLaws _ r))).trans (Happening.faultLease_keepsLaws _ r k)

/-! ### CLAIM and ADJUST -/

theorem createLease_queue (s : State) (i : SlotId) (l : Lease) : (s.createLease i l).queue = s.queue :=
  setMemberships_queue _ _ _

theorem grantClaim_keepsLaws (h : Happening) (t : TenantId) (a : ClaimArgs) (i : SlotId) (members : List Member) :
    KeepsLaws h.st (h.grantClaim t a i members).st := by
  refine KeepsLaws.trans ?_ (Happening.raiseMember_keepsLaws _ _ _)
  have hqueue : ∀ l, (((h.st.createLease i l).charge t l.charge).joinList (h.st.handleOf i)).queue = h.st.queue :=
    fun l => createLease_queue h.st i l
  refine keepsLaws_of_quiet (by simp [State.createLease]) (by simp [State.createLease]) ?_ fun q => ?_
  · simp only [Happening.map_st, State.createLease]
    exact (counts_setMemberships _ _ _).trans (counts_setLease _ _ _)
  · exact queueInv_map QueueEntry.passed (fun e => Or.inr rfl) rfl (queueInv_of_queue_eq (hqueue _) q)

theorem deferClaim_keepsLaws (h : Happening) (t : TenantId) (a : ClaimArgs) (i : SlotId) (members : List Member)
    (room : h.st.queue.length < 8) : KeepsLaws h.st (h.deferClaim t a i members).st := by
  refine keepsLaws_of_quiet (by simp [Happening.deferClaim, State.createLease])
    (by simp [Happening.deferClaim, State.createLease]) ?_ fun q => ?_
  · exact (counts_setMemberships _ _ _).trans (counts_setLease _ _ _)
  · have hqueue := createLease_queue h.st i (newLease h.st.now t a members .waiting)
    exact insertClaim_queueInv _ _ (hqueue.symm ▸ room) (queueInv_of_queue_eq hqueue q)

/-- A CLAIM is DEFERRED only where the queue has room (R44). -/
theorem room_of_deferred {s : State} {t : TenantId} {noWait : Bool} {options : List (List Member)} {members : List Member}
    (h : s.claimOutcome t noWait options = .deferred members) : s.queue.length < 8 := by
  have hfirst : ∀ ms, s.judgeFirst t noWait ms = .deferred members → s.queue.length < 8 := by
    intro ms hm
    unfold State.judgeFirst at hm
    simp only at hm
    split at hm
    · cases hm
    · split at hm
      · cases hm
      · split at hm
        · cases hm
        · omega
  unfold State.claimOutcome at h
  simp only at h
  split at h
  · exact hfirst _ h
  · split at h
    · cases h
    · exact hfirst _ h

theorem claimBody_keepsLaws (s : State) (t : TenantId) (c : CtxId) (a : ClaimArgs) : KeepsLaws s (s.claimBody t c a) := by
  unfold State.claimBody
  split
  · exact refuse_keepsLaws _ _ _ _
  · exact refuse_keepsLaws _ _ _ _
  · simp only
    split
    · exact (grantClaim_keepsLaws s.begin t a _ _).trans (settle_answer_keepsLaws _ _ _ _ _ _)
    · next hd => exact (deferClaim_keepsLaws s.begin t a _ _ (room_of_deferred hd)).trans (settle_answer_keepsLaws _ _ _ _ _ _)
    · exact settle_answer_keepsLaws s.begin _ _ _ _ _

theorem claim_keepsLaws (t : TenantId) (s : State) : KeepsLaws s (claim t s) := by
  unfold claim
  split
  · exact claimBody_keepsLaws _ _ _ _
  · exact .refl s

/-- The writes of limits and the slews of an ADJUST reach rails and stable deadlines alone (R50, R51, R109). -/
theorem adjustPorts_keepsLaws (s : State) (members : List Member) (changes slews : List MemberChange) :
    KeepsLaws s (s.adjustPorts members changes slews) := by
  have hloop : ∀ (f : State → MemberChange → State), (∀ s c, KeepsLaws s (f s c)) → ∀ (cs : List MemberChange) (s : State),
      KeepsLaws s (cs.foldl f s) := by
    intro f hf cs
    induction cs with
    | nil => exact fun s => .refl s
    | cons c cs ih => exact fun s => (hf s c).trans (ih _)
  unfold State.adjustPorts
  refine (hloop _ ?_ _ _).trans (hloop _ ?_ _ _)
  · intro s c
    split
    · exact keepsLaws_of_quiet (by simp) (by simp) (by simp) id
    · exact .refl s
  · intro s c
    split
    · exact keepsLaws_of_quiet (by simp) (by simp) (by simp) (queueInv_of_queue_eq (enterSlewing_queue _ _ _))
    · exact .refl s

theorem charge_keepsLaws (s : State) (t : TenantId) (c : Nat) : KeepsLaws s (s.charge t c) :=
  keepsLaws_of_quiet (by simp) (by simp) rfl id

theorem acceptAdjust_keepsLaws (h : Happening) (i : SlotId) (l : Lease) (changes : List MemberChange) (newCharge : Nat) :
    KeepsLaws h.st (h.acceptAdjust i l changes newCharge).st := by
  have hports := Happening.map_keepsLaws (h := h)
    (f := fun s => (s.charge l.tenant (newCharge - l.charge)).adjustPorts l.members changes (slewed l.members changes))
    ((charge_keepsLaws h.st l.tenant (newCharge - l.charge)).trans
    (adjustPorts_keepsLaws _ l.members changes (slewed l.members changes)))
  unfold Happening.acceptAdjust
  simp only
  split
  · exact (hports.trans (Happening.changeLease_keepsLaws _ _ _ _)).trans (Happening.creditFall_keepsLaws _ _ _ _)
  · exact hports.trans (Happening.changeLease_keepsLaws _ _ _ _)

theorem adjust_keepsLaws (t : TenantId) (s : State) : KeepsLaws s (adjust t s) := by
  unfold adjust
  split
  · unfold State.adjustBody
    split
    · exact refuse_keepsLaws _ _ _ _
    · simp only
      split
      · exact refuse_keepsLaws _ _ _ _
      · split
        · exact refuse_keepsLaws _ _ _ _
        · exact (acceptAdjust_keepsLaws s.begin _ _ _ _).trans (settle_answer_keepsLaws _ _ _ _ _ _)
  · exact .refl s

/-! ### RELEASE, REVOKE, RENEW, QUERY_LEASE and the deadlines of leases -/

theorem giveUp_keepsLaws (s : State) (c : CtxId) (i : SlotId) (l : Lease) (cause : StopCause) :
    KeepsLaws s (s.giveUp c i l cause) := by
  unfold State.giveUp
  split
  · exact refuse_keepsLaws _ _ _ _
  · exact (Happening.stopCause_keepsLaws s.begin i l cause).trans (settle_reply_keepsLaws _ _ _)

theorem release_keepsLaws (t : TenantId) (s : State) : KeepsLaws s (release t s) := by
  unfold release
  split
  · unfold State.releaseBody
    split
    · exact refuse_keepsLaws _ _ _ _
    · split
      · exact refuse_keepsLaws _ _ _ _
      · exact giveUp_keepsLaws _ _ _ _ _
  · exact .refl s

theorem revoke_keepsLaws (s : State) : KeepsLaws s (revoke s) := by
  unfold revoke
  split
  · unfold State.revokeBody
    split
    · exact refuse_keepsLaws _ _ _ _
    · exact giveUp_keepsLaws _ _ _ _ _
  · exact .refl s

theorem renew_keepsLaws (t : TenantId) (s : State) : KeepsLaws s (renew t s) := by
  unfold renew
  split
  · unfold State.renewBody
    split
    · exact refuse_keepsLaws _ _ _ _
    · split
      · exact refuse_keepsLaws _ _ _ _
      · split
        · exact refuse_keepsLaws _ _ _ _
        · exact (Happening.putLease_keepsLaws s.begin _ _).trans (settle_reply_keepsLaws _ _ _)
  · exact .refl s

theorem queryLease_keepsLaws (t : TenantId) (s : State) : KeepsLaws s (queryLease t s) := by
  unfold queryLease
  split
  · unfold State.queryLeaseBody
    split
    · exact refuse_keepsLaws _ _ _ _
    · split
      · exact refuse_keepsLaws _ _ _ _
      · exact beginReport_keepsLaws _ _ _ _
  · exact .refl s

theorem lapse_keepsLaws (x : Handle) (s : State) : KeepsLaws s (lapse x s) := by
  unfold lapse
  split
  · split
    · exact .atDeadline _ ((Happening.stopCause_keepsLaws s.begin _ _ _).trans (settle_keepsLaws _))
    · exact .refl s
  · exact .refl s

theorem waitDeadline_keepsLaws (x : Handle) (s : State) : KeepsLaws s (waitDeadline x s) := by
  unfold waitDeadline
  split
  · split
    · exact .atDeadline _ ((Happening.endLease_keepsLaws s.begin _ _ _).trans (settle_keepsLaws _))
    · exact .refl s
  · exact .refl s

theorem setQueuePolicy_keepsLaws (s : State) : KeepsLaws s (setQueuePolicy s) := by
  have hbody : ∀ (c : CtxId) (p d : Nat), KeepsLaws s
      (if 15 < p then s.refuse c .badValue .none
       else if d < 1 ∨ 600 < d then s.refuse c .badValue .none
       else ((s.begin.map fun s => { s with passLimit := p, defaultWait := d }).reply c .ok).settle) := by
    intro c p d
    split
    · exact refuse_keepsLaws _ _ _ _
    · split
      · exact refuse_keepsLaws _ _ _ _
      · refine KeepsLaws.trans ?_ (settle_reply_keepsLaws _ _ _)
        exact ⟨fun c => { c with policy := (by show p ≤ 15 ∧ 1 ≤ d ∧ d ≤ 600; omega) }, id, id, id, id⟩
  unfold setQueuePolicy
  split
  · unfold State.setQueuePolicyBody
    split
    · exact hbody _ _ _
    · exact hbody _ _ _
    · exact refuse_keepsLaws _ _ _ _
  · exact .refl s

/-! ### Feeds and the budget -/

theorem budgetMoved_st (h : Happening) (before : Nat) (reason : Reason) : (h.budgetMoved before reason).st = h.st := by
  have hmarks : ∀ (ts : List TenantId) (g : Happening), (ts.foldl (fun h t => h.mark t .budget reason) g).st = g.st := by
    intro ts
    induction ts with
    | nil => exact fun _ => rfl
    | cons t ts ih => exact fun g => (ih _).trans rfl
  unfold Happening.budgetMoved
  split
  · rfl
  · split
    · exact hmarks _ h
    · exact hmarks _ h

theorem budgetMoved_keepsLaws (h : Happening) (before : Nat) (reason : Reason) :
    KeepsLaws h.st (h.budgetMoved before reason).st := by
  rw [budgetMoved_st]
  exact .refl _

/-- A write of a feed whose capacity and qualify time are in their ranges. -/
theorem setFeedRecord_keepsLaws {s : State} {f : FeedId} {x : Feed}
    (hx : ((s.feed f).capacity ≤ 4000000 ∧ 10 ≤ (s.feed f).qualify ∧ (s.feed f).qualify ≤ 5000) →
      x.capacity ≤ 4000000 ∧ 10 ≤ x.qualify ∧ x.qualify ≤ 5000) : KeepsLaws s (s.setFeedRecord f x) := by
  refine ⟨fun c => { c with feed := fun g => ?_ }, id, id, id, id⟩
  rw [State.feed_setFeedRecord]
  split
  · exact hx (c.feed f)
  · exact c.feed g

theorem setFeedState_keepsLaws (s : State) (f : FeedId) (x : FeedState) : KeepsLaws s (s.setFeedState f x) :=
  setFeedRecord_keepsLaws id

theorem senseLineRise_keepsLaws (f : FeedId) (s : State) : KeepsLaws s (senseLineRise f s) := by
  unfold senseLineRise
  split
  · exact setFeedState_keepsLaws _ _ _
  · exact .refl s

theorem senseLineFall_keepsLaws (f : FeedId) (s : State) : KeepsLaws s (senseLineFall f s) := by
  unfold senseLineFall
  split
  · exact .refl s
  · exact setFeedState_keepsLaws _ _ _
  · exact (((Happening.map_keepsLaws (h := s.begin) (f := fun s => s.setFeedState f .absent) (setFeedState_keepsLaws s f _)).trans (budgetMoved_keepsLaws _ _ _)).trans
      (Happening.shedPass_keepsLaws _)).trans (settle_keepsLaws _)

theorem qualifyDeadline_keepsLaws (f : FeedId) (s : State) : KeepsLaws s (qualifyDeadline f s) := by
  unfold qualifyDeadline
  split
  · exact .atDeadline _
      (((Happening.map_keepsLaws (h := s.begin) (f := fun s => s.setFeedState f .present)
        (setFeedState_keepsLaws s f _)).trans (budgetMoved_keepsLaws _ _ _)).trans
        (settle_keepsLaws _))
  · exact .refl s

theorem setFeed_keepsLaws (s : State) : KeepsLaws s (setFeed s) := by
  unfold setFeed
  split
  · unfold State.setFeedBody
    split
    · exact refuse_keepsLaws _ _ _ _
    · split
      · exact refuse_keepsLaws _ _ _ _
      · split
        · exact refuse_keepsLaws _ _ _ _
        · split
          · exact refuse_keepsLaws _ _ _ _
          · simp only
            split
            · exact refuse_keepsLaws _ _ _ _
            · refine (setFeedRecord_keepsLaws fun _ => ?_).trans
                ((budgetMoved_keepsLaws (State.begin _) _ _).trans (settle_reply_keepsLaws _ _ _))
              simp only
              omega
  · exact .refl s

theorem setMargin_keepsLaws (s : State) : KeepsLaws s (setMargin s) := by
  unfold setMargin
  split
  · next c m _ =>
    unfold State.setMarginBody
    split
    · exact refuse_keepsLaws _ _ _ _
    · split
      · exact refuse_keepsLaws _ _ _ _
      · simp only
        split
        · exact refuse_keepsLaws _ _ _ _
        · refine KeepsLaws.trans ?_
            ((budgetMoved_keepsLaws (State.begin { s with margin := m }) _ _).trans (settle_reply_keepsLaws _ _ _))
          exact ⟨fun c => { c with margin := (by show m ≤ 1000000; omega) }, id, id, id, id⟩
  · exact .refl s

theorem setAccount_keepsLaws {s : State} {t : TenantId} {x : Account} (hx : x.quota ≤ 12000000 ∧ x.maxClass ≤ 3) :
    KeepsLaws s (s.setAccount t x) := by
  refine ⟨fun c => { c with account := fun n => ?_ }, id, id, id, id⟩
  rw [State.account_setAccount]
  split
  · exact hx
  · exact c.account n

theorem setQuota_keepsLaws (s : State) : KeepsLaws s (setQuota s) := by
  unfold setQuota
  split
  · next c tenant maxClass quota _ =>
    unfold State.setQuotaBody
    split
    · exact refuse_keepsLaws _ _ _ _
    · split
      · exact refuse_keepsLaws _ _ _ _
      · split
        · exact refuse_keepsLaws _ _ _ _
        · split
          · exact refuse_keepsLaws _ _ _ _
          · split
            · exact refuse_keepsLaws _ _ _ _
            · next t _ hquota hclass _ =>
              have hset : KeepsLaws s
                  (s.begin.map fun s => s.setAccount t { s.account t with quota := quota, maxClass := maxClass }).st :=
                setAccount_keepsLaws ⟨Nat.le_of_not_lt hquota, Nat.le_of_not_lt hclass⟩
              refine KeepsLaws.trans ?_ (settle_reply_keepsLaws _ _ _)
              split <;> exact hset
  · exact .refl s

theorem queryBudget_keepsLaws (t : TenantId) (s : State) : KeepsLaws s (queryBudget t s) := by
  unfold queryBudget
  split
  · unfold State.queryBudgetBody
    split
    · exact refuse_keepsLaws _ _ _ _
    · split
      · exact refuse_keepsLaws _ _ _ _
      · exact beginReport_keepsLaws _ _ _ _
  · exact .refl s

end Sys2Proof.Machine

/-! PROOFS. The five laws that every happening keeps: the rows of the rails, of ownership, of the rings and of the service, and the
step. -/

namespace Sys2Proof.Machine

/-! ### Ownership -/

/-- A write of an ownership record that obeys the offer law where the old one did (R141). -/
theorem setOwned_keepsLaws {s : State} {r : RailId} {x : Ownership}
    (hx : ∀ o, x.offer = some o → x.owner = some o.offerer ∧ o.offerer ≠ o.target) : KeepsLaws s (s.setOwned r x) := by
  refine ⟨fun c => { c with }, id, fun h q o ho => ?_, id, id⟩
  rw [State.owned_setOwned] at ho ⊢
  split at ho
  · next e => rw [if_pos e]; exact hx o ho
  · next e => rw [if_neg e]; exact h q o ho

theorem dropOffer_keepsLaws (s : State) (r : RailId) : KeepsLaws s (s.dropOffer r) :=
  setOwned_keepsLaws fun _ h => nomatch h

/-- A rail with no offer may change its owner. -/
theorem setOwner_keepsLaws {s : State} {r : RailId} {owner : Option TenantId} (h : (s.owned r).offer = none) :
    KeepsLaws s (s.setOwner r owner) :=
  setOwned_keepsLaws fun o ho => by rw [h] at ho; cases ho

theorem cancelOffer_keepsLaws (h : Happening) (r : RailId) : KeepsLaws h.st (h.cancelOffer r).st := by
  unfold Happening.cancelOffer
  split
  · exact dropOffer_keepsLaws h.st r
  · exact .refl _

theorem cancelOffer_offer (h : Happening) (r : RailId) : ((h.cancelOffer r).st.owned r).offer = none := by
  unfold Happening.cancelOffer
  split
  · exact congrArg Ownership.offer (State.owned_setOwned_same h.st r _)
  · next ho => exact ho

theorem markTenant?_st (h : Happening) (t : Option TenantId) (r : RailId) (reason : Reason) :
    (h.markTenant? t r reason).st = h.st := by
  unfold Happening.markTenant?
  split <;> rfl

theorem assign_st (h : Happening) (r : RailId) (owner : Option TenantId) : (h.assign r owner).st = h.st.setOwner r owner := by
  unfold Happening.assign
  simp only
  split
  · exact markTenant?_st _ _ _ _
  · rw [markTenant?_st, markTenant?_st]
    rfl

theorem assignRail_keepsLaws (s : State) : KeepsLaws s (assignRail s) := by
  unfold assignRail
  split
  · unfold State.assignRailBody
    split
    · exact refuse_keepsLaws _ _ _ _
    · split
      · exact refuse_keepsLaws _ _ _ _
      · exact refuse_keepsLaws _ _ _ _
      · next r new _ _ =>
        split
        · exact refuse_keepsLaws _ _ _ _
        · refine KeepsLaws.trans ?_ (settle_reply_keepsLaws _ _ _)
          rw [assign_st]
          exact (cancelOffer_keepsLaws s.begin r).trans (setOwner_keepsLaws (cancelOffer_offer s.begin r))
  · exact .refl s

/-- What the checks of an accepted OFFER_RAIL say of its rail and its target (R142). -/
theorem judgeOffer_ok {s : State} {t n : TenantId} {r : RailId} {target lifetime : Nat}
    (h : s.judgeOffer t r target lifetime = .ok n) : (s.owned r).owner = some t ∧ n ≠ t := by
  unfold State.judgeOffer at h
  split at h
  · cases h
  · next howner =>
    split at h
    · cases h
    · split at h
      · cases h
      · next hne =>
        refine ⟨not_not.mp howner, ?_⟩
        split at h
        · cases h
        · split at h
          · cases h
          · split at h
            · cases h
            · split at h
              · cases h
              · cases h
                exact hne

theorem offerRail_keepsLaws (t : TenantId) (s : State) : KeepsLaws s (offerRail t s) := by
  unfold offerRail
  split
  · unfold State.offerRailBody
    split
    · exact refuse_keepsLaws _ _ _ _
    · split
      · exact refuse_keepsLaws _ _ _ _
      · split
        · exact refuse_keepsLaws _ _ _ _
        · next n hok =>
          obtain ⟨howner, hne⟩ := judgeOffer_ok hok
          refine .reply (setOwned_keepsLaws fun o ho => ?_) _ _
          cases ho
          exact ⟨howner, hne.symm⟩
  · exact .refl s

theorem withdrawOffer_keepsLaws (t : TenantId) (s : State) : KeepsLaws s (withdrawOffer t s) := by
  unfold withdrawOffer
  split
  · unfold State.withdrawOfferBody
    split
    · exact refuse_keepsLaws _ _ _ _
    · split
      · exact refuse_keepsLaws _ _ _ _
      · split
        · split
          · exact .reply (dropOffer_keepsLaws s _) _ _
          · exact refuse_keepsLaws _ _ _ _
        · exact refuse_keepsLaws _ _ _ _
  · exact .refl s

theorem moveRail_keepsLaws (s : State) (r : RailId) (t : TenantId) : KeepsLaws s (s.moveRail r t) :=
  (dropOffer_keepsLaws s r).trans (setOwner_keepsLaws (congrArg Ownership.offer (State.owned_setOwned_same s r _)))

theorem transfer_keepsLaws (h : Happening) (i : SlotId) (l : Lease) (t : TenantId) :
    KeepsLaws h.st (h.transfer i l t).st := by
  unfold Happening.transfer
  simp only
  split
  · exact keepsLaws_of_quiet (by simp) (by simp) rfl id
  · exact Happening.putLease_keepsLaws h i _

theorem acceptRail_keepsLaws (t : TenantId) (s : State) : KeepsLaws s (acceptRail t s) := by
  unfold acceptRail
  split
  · unfold State.acceptRailBody
    split
    · exact refuse_keepsLaws _ _ _ _
    · split
      · exact refuse_keepsLaws _ _ _ _
      · next r _ =>
        have hmoved : KeepsLaws s (s.begin.map fun s => s.moveRail r t).st := moveRail_keepsLaws s r t
        split
        · exact refuse_keepsLaws _ _ _ _
        · simp only
          split
          · exact .reply (h := Happening.mark _ _ _ _) hmoved _ _
          · next i l _ =>
            split
            · exact refuse_keepsLaws _ _ _ _
            · refine .answer ?_ _ _ _ _ _
              rw [Happening.mark_st, Happening.mark_st]
              exact hmoved.trans (transfer_keepsLaws _ i l t)
  · exact .refl s

theorem offerExpiry_keepsLaws (r : RailId) (s : State) : KeepsLaws s (offerExpiry r s) := by
  unfold offerExpiry
  split
  · exact .atDeadline _ (.settle (h := Happening.markOffer _ _ _ _) (dropOffer_keepsLaws s r))
  · exact .refl s

/-! ### Tiers and rail configurations -/

/-- A write of a tier list that lies within its rail's limits and has at most 6 tiers (R29, R32). -/
theorem setTierList_keepsLaws {s : State} {r : RailId} {x : List Tier} (hx : tiersWithin x (s.config r) = true)
    (hlen : x.length ≤ 6) : KeepsLaws s (s.setTierList r x) := by
  refine ⟨fun c => { c with }, fun h q => ?_, id, id, id⟩
  rw [State.tierList_setTierList]
  split
  · next e => subst e; exact ⟨hx, hlen⟩
  · exact h q

/-- A tier that passes check 5 of R31 lies within its rail's limits. -/
theorem within_of_judge {e : TierEntry} {cfg : RailConfig} {x : Tier} (h : e.judge cfg = some x) :
    x.within cfg.floor cfg.ceiling cfg.currentCeiling = true := by
  unfold TierEntry.judge at h
  split at h
  · cases h
  · obtain ⟨⟨-, -, -, -, hwithin, -⟩, hx⟩ := Option.ite_none_right_eq_some.mp h
    exact Option.some.inj hx ▸ hwithin

theorem readTiers_length (record : List Byte) (count : Nat) : (readTiers record count).length ≤ 6 := by
  simp [readTiers]

/-- A record carries at most 6 tier entries (R194, R195). -/
theorem length_of_read_setTiers {record : List Byte} {rail count : Nat} {entries : List TierEntry}
    (h : Command.read record = some (.setTiers rail count entries)) : entries.length ≤ 6 := by
  unfold Command.read at h
  split at h
  case h_10 =>
    cases h
    exact readTiers_length _ _
  all_goals cases h

theorem setTiers_keepsLaws (s : State) : KeepsLaws s (setTiers s) := by
  unfold setTiers
  split
  · next c rail count entries hcmd =>
    obtain ⟨x, -, -, -, hread⟩ := takenCommand_context hcmd
    unfold State.setTiersBody
    split
    · exact refuse_keepsLaws _ _ _ _
    · split
      · exact refuse_keepsLaws _ _ _ _
      · split
        · exact refuse_keepsLaws _ _ _ _
        · split
          · exact refuse_keepsLaws _ _ _ _
          · next r _ _ _ =>
            simp only
            split
            · exact refuse_keepsLaws _ _ _ _
            · refine .reply (h := Happening.map _ _) (setTierList_keepsLaws (r := r) ?_ ?_) _ _
              · refine List.all_eq_true.mpr fun t ht => ?_
                obtain ⟨o, ho, hot⟩ := List.mem_filterMap.mp ht
                obtain ⟨e, -, he⟩ := List.mem_map.mp ho
                exact within_of_judge (he.trans hot)
              · calc _ ≤ _ := List.length_filterMap_le _ _
                  _ = entries.length := List.length_map _
                  _ ≤ 6 := length_of_read_setTiers hread
  · exact .refl s

/-- A write of a configuration in range that holds the rail's present tiers (R32, R93). -/
theorem setConfig_keepsLaws {s : State} {r : RailId} {x : RailConfig}
    (hx : (s.config r).inRange = true → x.inRange = true)
    (ht : tiersWithin (s.tierList r) (s.config r) = true → tiersWithin (s.tierList r) x = true) :
    KeepsLaws s (s.setConfig r x) := by
  refine ⟨fun c => { c with rail := fun q => ?_ }, fun h q => ?_, id, id, id⟩
  · rw [State.config_setConfig]
    split
    · exact hx (c.rail r)
    · exact c.rail q
  · obtain ⟨hwithin, hlen⟩ := h q
    refine ⟨?_, hlen⟩
    rw [State.config_setConfig]
    split
    · next e => subst e; exact ht hwithin
    · exact hwithin

theorem setRail_keepsLaws (s : State) : KeepsLaws s (setRail s) := by
  unfold setRail
  split
  · unfold State.setRailBody
    split
    · exact refuse_keepsLaws _ _ _ _
    · split
      · exact refuse_keepsLaws _ _ _ _
      · next r _ =>
        split
        · exact refuse_keepsLaws _ _ _ _
        · split
          · exact refuse_keepsLaws _ _ _ _
          · split
            · refine .reply ?_ _ _
              exact setConfig_keepsLaws (r := r) (x := { s.config r with configured := false }) id id
            · split
              · exact refuse_keepsLaws _ _ _ _
              · next hrange =>
                split
                · exact refuse_keepsLaws _ _ _ _
                · next htiers =>
                  exact .reply (h := Happening.map _ _) (setConfig_keepsLaws (r := r)
                    (fun _ => (Bool.not_eq_false _).mp hrange) fun _ => (Bool.not_eq_false _).mp htiers) _ _
  · exact .refl s

theorem queryRail_keepsLaws (t : TenantId) (pgHigh : Bool) (s : State) : KeepsLaws s (queryRail t pgHigh s) := by
  unfold queryRail
  split
  · unfold State.queryRailBody
    split
    · exact refuse_keepsLaws _ _ _ _
    · exact beginReport_keepsLaws _ _ _ _
  · exact .refl s

/-! ### Stage events and the deadlines of rails -/

theorem memberOn_keepsLaws (h : Happening) (r : RailId) : KeepsLaws h.st (h.memberOn r).st := by
  unfold Happening.memberOn
  split
  · split
    · split
      · split
        · split
          · exact Happening.stepOver_keepsLaws _ _ _ _
          · exact Happening.putLease_keepsLaws _ _ _
        · exact .refl _
      · exact .refl _
    · exact .refl _
  · exact .refl _

theorem pgRise_keepsLaws (r : RailId) (s : State) : KeepsLaws s (pgRise r s) := by
  unfold pgRise
  split
  · have hon : KeepsLaws s (s.begin.map fun s => s.enterOn r).st := enterOn_keepsLaws s r
    exact (hon.trans (memberOn_keepsLaws _ r)).trans (settle_keepsLaws _)
  · exact .refl s

theorem stepDelayEnd_keepsLaws (x : Handle) (s : State) : KeepsLaws s (stepDelayEnd x s) := by
  unfold stepDelayEnd
  split
  · split
    · exact .atDeadline _ ((Happening.stepOver_keepsLaws s.begin _ _ _).trans (settle_keepsLaws _))
    · exact .refl s
  · exact .refl s

theorem settle_fault_keepsLaws (s : State) (r : RailId) (k : FaultKind) : KeepsLaws s (s.begin.fault r k).settle :=
  (fault_keepsLaws s.begin r k).trans (settle_keepsLaws _)

theorem pgFall_keepsLaws (r : RailId) (s : State) : KeepsLaws s (pgFall r s) := by
  unfold pgFall
  split
  · exact settle_fault_keepsLaws _ _ _
  · exact settle_fault_keepsLaws _ _ _
  · exact .refl s

theorem stageFault_keepsLaws (r : RailId) (kind : StageFault) (s : State) : KeepsLaws s (stageFault r kind s) := by
  unfold stageFault
  split
  · exact .refl s
  · exact .refl s
  · exact settle_fault_keepsLaws _ _ _

theorem rampDeadline_keepsLaws (r : RailId) (s : State) : KeepsLaws s (rampDeadline r s) := by
  unfold rampDeadline
  split
  · exact .atDeadline _ (settle_fault_keepsLaws _ _ _)
  · exact .refl s

theorem slewEnded_keepsLaws (h : Happening) (r : RailId) : KeepsLaws h.st (h.slewEnded r).st := by
  unfold Happening.slewEnded
  split
  · split
    · simp only
      split
      · exact (Happening.changeLease_keepsLaws _ _ _ _).trans (Happening.creditFall_keepsLaws _ _ _ _)
      · exact Happening.putLease_keepsLaws _ _ _
    · exact .refl _
  · exact .refl _

theorem slewDeadline_keepsLaws (r : RailId) (pgHigh : Bool) (s : State) : KeepsLaws s (slewDeadline r pgHigh s) := by
  unfold slewDeadline
  split
  · refine .atDeadline _ ?_
    split
    · have hon : KeepsLaws s (s.begin.map fun s => s.enterOn r).st := enterOn_keepsLaws s r
      exact (hon.trans (slewEnded_keepsLaws _ r)).trans (settle_keepsLaws _)
    · exact settle_fault_keepsLaws _ _ _
  · exact .refl s

theorem markOwner_st (h : Happening) (r : RailId) (reason : Reason) : (h.markOwner r reason).st = h.st := by
  unfold Happening.markOwner
  split <;> rfl

theorem comeDown_keepsLaws (h : Happening) (r : RailId) (locked : Bool) : KeepsLaws h.st (h.comeDown r locked).st := by
  unfold Happening.comeDown
  refine KeepsLaws.trans ?_ (Happening.railDown_keepsLaws _ _)
  split
  · rw [markOwner_st]
    exact enterDown_keepsLaws h.st r locked
  · exact enterDown_keepsLaws h.st r locked

theorem lowReached_keepsLaws (r : RailId) (s : State) : KeepsLaws s (lowReached r s) := by
  unfold lowReached
  split
  · exact (comeDown_keepsLaws s.begin r _).trans (settle_keepsLaws _)
  · exact .refl s

theorem dischargeDeadline_keepsLaws (r : RailId) (s : State) : KeepsLaws s (dischargeDeadline r s) := by
  unfold dischargeDeadline
  split
  · have hcount : KeepsLaws s (s.begin.map fun s => s.countFault r .dischargeTimeout).st := countFault_keepsLaws s r _
    exact .atDeadline _ (((hcount.trans (Happening.faultLease_keepsLaws _ _ _)).trans
      (comeDown_keepsLaws _ r _)).trans (settle_keepsLaws _))
  · exact .refl s

theorem stableDeadline_keepsLaws (r : RailId) (s : State) : KeepsLaws s (stableDeadline r s) := by
  unfold stableDeadline
  split
  · exact .atDeadline _ (setFaultRecord_keepsLaws fun _ => Nat.zero_le _)
  · exact .refl s

theorem backoffDeadline_keepsLaws (x : Handle) (s : State) : KeepsLaws s (backoffDeadline x s) := by
  unfold backoffDeadline
  split
  · split
    · exact .atDeadline _ ((Happening.restart_keepsLaws s.begin _ _).trans (settle_keepsLaws _))
    · exact .refl s
  · exact .refl s

theorem clearLockout_keepsLaws (s : State) : KeepsLaws s (clearLockout s) := by
  unfold clearLockout
  split
  · unfold State.clearLockoutBody
    split
    · exact refuse_keepsLaws _ _ _ _
    · split
      · exact refuse_keepsLaws _ _ _ _
      · next r _ =>
        split
        · exact refuse_keepsLaws _ _ _ _
        · split
          · exact refuse_keepsLaws _ _ _ _
          · refine KeepsLaws.trans ?_ (settle_reply_keepsLaws _ _ _)
            rw [markOwner_st]
            exact (enterDown_keepsLaws s r false).trans (setFaultRecord_keepsLaws (r := r) fun _ => Nat.zero_le _)
  · exact .refl s

end Sys2Proof.Machine

/-! PROOFS. The five laws that every happening keeps: the rows of the rings and of the service, and the step. -/

namespace Sys2Proof.Machine

/-! ### Tenants and contexts -/

/-- A write of a tenant that leaves its outbound queue as it is. -/
theorem setTenant_keepsLaws_of_outbound {s : State} {t : TenantId} {x : Tenant} (hx : x.outbound = (s.tenant t).outbound) :
    KeepsLaws s (s.setTenant t x) :=
  keepsLaws_of_rings_held (onlyRings_setTenant s t x) (held_setTenant s t x hx)

theorem setContext_keepsLaws (s : State) (c : CtxId) (x : Option Context) : KeepsLaws s (s.setContext c x) :=
  keepsLaws_of_rings_held (onlyRings_setContext s c x) rfl

theorem setUnderWay_keepsLaws (s : State) (t : TenantId) (b : Bool) : KeepsLaws s (s.setUnderWay t b) :=
  setTenant_keepsLaws_of_outbound rfl

theorem mapStages_keepsLaws (s : State) (t : TenantId) (f : Stage → Stage) : KeepsLaws s (s.mapStages t f) :=
  keepsLaws_of_rings_held (onlyRings_mapStages s t f) rfl

theorem setWriter_keepsLaws (s : State) (t : TenantId) (w : Option WriterAccess) : KeepsLaws s (s.setWriter t w) :=
  setTenant_keepsLaws_of_outbound rfl

theorem clearInterrupt_keepsLaws (s : State) (t : TenantId) : KeepsLaws s (s.clearInterrupt t) :=
  setTenant_keepsLaws_of_outbound rfl

theorem breakTenant_keepsLaws (s : State) (t : TenantId) : KeepsLaws s (s.breakTenant t) := by
  unfold State.breakTenant
  exact .trans' (mapStages_keepsLaws _ _ _) (setTenant_keepsLaws_of_outbound rfl)

theorem endIntake_keepsLaws (s : State) (t : TenantId) (c : CtxId) : KeepsLaws s (s.endIntake t c) :=
  (freeContext_keepsLaws s c).trans (setUnderWay_keepsLaws _ _ _)

theorem freeDropped_keepsLaws (s : State) (c : CtxId) : KeepsLaws s (s.freeDropped c) :=
  .settle (freeContext_keepsLaws s c)

theorem freeWritten_keepsLaws (s : State) (ctx : Option CtxId) : KeepsLaws s (s.freeWritten ctx) := by
  unfold State.freeWritten
  split
  · exact freeContext_keepsLaws _ _
  · exact .refl s

theorem startRecheck_keepsLaws (s : State) (t : TenantId) : KeepsLaws s (s.startRecheck t) := by
  unfold State.startRecheck
  simp only
  split
  · exact setTenant_keepsLaws_of_outbound rfl
  · exact .refl s

/-- A tenant whose outbound queue is emptied. -/
theorem setTenant_keepsLaws_of_empty {s : State} {t : TenantId} {x : Tenant} (hx : x.outbound = []) :
    KeepsLaws s (s.setTenant t x) :=
  setTenant_keepsLaws fun _ => by rw [hx]; exact List.nodup_nil

theorem openWith_keepsLaws (s : State) (n : TenantId) (d : Descriptor) : KeepsLaws s (s.openWith n d) :=
  setTenant_keepsLaws_of_empty rfl

/-! ### Queries, OPEN_TENANT, TENANT_SIGNAL writes -/

theorem queryTenant_keepsLaws (t : TenantId) (s : State) : KeepsLaws s (queryTenant t s) := by
  unfold queryTenant
  split
  · unfold State.queryTenantBody
    split
    · exact refuse_keepsLaws _ _ _ _
    · split
      · exact refuse_keepsLaws _ _ _ _
      · exact beginReport_keepsLaws _ _ _ _
  · exact .refl s

theorem openTenant_keepsLaws (s : State) : KeepsLaws s (openTenant s) := by
  unfold openTenant
  split
  · unfold State.openTenantBody
    split
    · exact refuse_keepsLaws _ _ _ _
    · split
      · exact refuse_keepsLaws _ _ _ _
      · split
        · exact refuse_keepsLaws _ _ _ _
        · split
          · exact refuse_keepsLaws _ _ _ _
          · exact setStage_keepsLaws _ _ _
  · exact .refl s

theorem notify_keepsLaws (t : TenantId) (alsoAck : Bool) (s : State) : KeepsLaws s (notify t alsoAck s) := by
  have hack : KeepsLaws s (if alsoAck then s.clearInterrupt t else s) := by
    split
    · exact clearInterrupt_keepsLaws s t
    · exact .refl s
  unfold notify
  simp only
  generalize (if alsoAck then s.clearInterrupt t else s) = v at hack
  split
  · refine hack.trans ?_
    have hmarked : KeepsLaws v ((v.setTenant t { v.tenant t with scanPending := true }).mapStages t Stage.noted) :=
      .trans' (mapStages_keepsLaws _ _ _) (setTenant_keepsLaws_of_outbound rfl)
    unfold State.notifyOpen
    simp only
    split
    · exact hmarked.trans (startRecheck_keepsLaws _ _)
    · exact hmarked
  · exact hack

/-! ### CLOSE_TENANT -/

theorem discard_keepsLaws (h : Happening) (e : OutEntry) : KeepsLaws h.st (h.discard e).st := by
  unfold Happening.discard
  split
  · exact freeContext_keepsLaws h.st _
  · exact .refl _
  · exact .refl _

theorem discardQueue_keepsLaws (h : Happening) (n : TenantId) : KeepsLaws h.st (h.discardQueue n).st := by
  refine KeepsLaws.trans ?_ (KeepsLaws.foldl Happening.discard discard_keepsLaws _ _)
  exact setTenant_keepsLaws_of_empty (s := h.st) (t := n) (x := { h.st.tenant n with outbound := [] }) rfl

theorem dropContexts_keepsLaws (s : State) (n : TenantId) : KeepsLaws s (s.dropContexts n) := by
  have hfree : KeepsLaws s
      (match s.findContext n Stage.isTaken with | some (c, _) => s.freeContext c | none => s) := by
    split
    · exact freeContext_keepsLaws _ _
    · exact .refl s
  exact (hfree.trans (mapStages_keepsLaws _ n Stage.dropped)).trans (setTenant_keepsLaws_of_outbound rfl)

theorem withdrawFor_keepsLaws (n : TenantId) (h : Happening) (r : RailId) :
    KeepsLaws h.st (Happening.withdrawFor n h r).st := by
  unfold Happening.withdrawFor
  split
  · split
    · exact dropOffer_keepsLaws h.st r
    · exact .refl _
  · exact .refl _

theorem withdrawAll_keepsLaws (h : Happening) (n : TenantId) : KeepsLaws h.st (h.withdrawAll n).st := by
  have hchosen : KeepsLaws h.st (h.map State.chosen).st := keepsLaws_of_quiet rfl rfl rfl id
  exact hchosen.trans (KeepsLaws.foldl (Happening.withdrawFor n) (withdrawFor_keepsLaws n) _ _)

theorem tearDown_keepsLaws (h : Happening) (c : CtxId) (n : TenantId) : KeepsLaws h.st (h.tearDown c n).st := by
  have hclosing : KeepsLaws h.st (h.map fun s => (s.setStage c (.tearing n)).beginClosing n).st :=
    (setStage_keepsLaws h.st c _).trans (setTenant_keepsLaws_of_outbound rfl)
  have hdropped := (hclosing.trans (discardQueue_keepsLaws _ n)).trans (dropContexts_keepsLaws _ n)
  have hstopped := hdropped.trans (Happening.stopAll_keepsLaws
    (((h.map fun s => (s.setStage c (.tearing n)).beginClosing n).discardQueue n).map fun s => s.dropContexts n)
    .tenantClosed fun l => l.tenant == n)
  exact hstopped.trans (withdrawAll_keepsLaws _ n)

theorem closeTenant_keepsLaws (s : State) : KeepsLaws s (closeTenant s) := by
  unfold closeTenant
  split
  · unfold State.closeTenantBody
    split
    · exact refuse_keepsLaws _ _ _ _
    · split
      · exact refuse_keepsLaws _ _ _ _
      · split
        · exact refuse_keepsLaws _ _ _ _
        · split
          · exact refuse_keepsLaws _ _ _ _
          · exact .settle (tearDown_keepsLaws s.begin _ _)
  · exact .refl s

/-! ### Intake and the writer -/

theorem intakeGrant_keepsLaws (s : State) : KeepsLaws s (intakeGrant s) := by
  unfold intakeGrant
  split
  · next t c _ _ =>
    have hrings := (setContext_keepsLaws s c
      (some { tenant := t, record := [], tag := none, stage := .headRead (s.tenant t).headAddr false .live })).trans
      (setTenant_keepsLaws_of_outbound (t := t)
        (x := { s.tenant t with inFlight := (s.tenant t).inFlight + 1, underWay := true }) rfl)
    exact ⟨fun c => { hrings.config c with }, hrings.tier, hrings.offer, hrings.marker, hrings.queue⟩
  · exact .refl s

theorem headReadEnd_keepsLaws (t : TenantId) (data : Option (List Byte)) (s : State) :
    KeepsLaws s (headReadEnd t data s) := by
  unfold headReadEnd
  split
  · split
    · split
      · exact freeDropped_keepsLaws _ _
      · exact (breakTenant_keepsLaws _ _).trans (endIntake_keepsLaws _ _ _)
      · exact endIntake_keepsLaws _ _ _
      · unfold State.headData
        split
        · unfold State.emptyHead
          simp only
          split
          · exact endIntake_keepsLaws _ _ _
          · exact .trans' (endIntake_keepsLaws _ _ _) (setTenant_keepsLaws_of_outbound rfl)
        · exact setContext_keepsLaws _ _ _
    · exact .refl s
  · exact .refl s

theorem gate_keepsLaws (s : State) (t : TenantId) (c : CtxId) (x : Context) : KeepsLaws s (s.gate t c x) := by
  unfold State.gate
  simp only
  split
  · exact (setContext_keepsLaws _ _ _).trans (refuse_keepsLaws _ _ _ _)
  · split
    · exact (setContext_keepsLaws _ _ _).trans (refuse_keepsLaws _ _ _ _)
    · exact setContext_keepsLaws _ _ _

theorem fillByteWriteEnd_keepsLaws (t : TenantId) (result : BusEnd) (s : State) :
    KeepsLaws s (fillByteWriteEnd t result s) := by
  unfold fillByteWriteEnd
  split
  · split
    · split
      · exact freeDropped_keepsLaws _ _
      · exact (breakTenant_keepsLaws _ _).trans (endIntake_keepsLaws _ _ _)
      · exact .trans' (gate_keepsLaws _ _ _ _) (setTenant_keepsLaws_of_outbound rfl)
    · exact .refl s
  · exact .refl s

theorem writerStart_keepsLaws (t : TenantId) (s : State) : KeepsLaws s (writerStart t s) := by
  unfold writerStart
  simp only
  split
  · exact setWriter_keepsLaws _ _ _
  · exact .refl s

theorem loosenFor_st (h : Happening) (e : OutEntry) : (h.loosenFor e).st = h.st := by
  unfold Happening.loosenFor
  split <;> rfl

/-- The tenant's writer takes the entry at the head of its outbound queue (R172). -/
theorem setTenant_keepsLaws_of_tail {s : State} {t : TenantId} {x : Tenant} {e : OutEntry}
    (hx : (s.tenant t).outbound = e :: x.outbound) : KeepsLaws s (s.setTenant t x) :=
  setTenant_keepsLaws fun h => (hx ▸ h).sublist ((List.sublist_cons_self e x.outbound).filterMap _)

theorem takeEntry_keepsLaws (s : State) (t : TenantId) (addr : BitVec 64) : KeepsLaws s (s.takeEntry t addr) := by
  have hclear : KeepsLaws s (s.setTenant t { s.tenant t with stalled := false, recheck := none, writer := none }) :=
    setTenant_keepsLaws_of_outbound rfl
  unfold State.takeEntry
  simp only
  generalize s.setTenant t { s.tenant t with stalled := false, recheck := none, writer := none } = v at hclear
  split
  · next e rest hq =>
    refine hclear.trans (.settle ?_)
    rw [loosenFor_st, begin_st]
    exact setTenant_keepsLaws_of_tail hq
  · exact hclear

theorem tailEnd_keepsLaws (s : State) (t : TenantId) (addr : BitVec 64) (fate : Fate) (fill : Option Byte) :
    KeepsLaws s (s.tailEnd t addr fate fill) := by
  unfold State.tailEnd
  split
  · exact .settle (setWriter_keepsLaws s t none)
  · exact (breakTenant_keepsLaws _ _).trans (setWriter_keepsLaws _ _ _)
  · exact setWriter_keepsLaws _ _ _
  · split
    · exact takeEntry_keepsLaws _ _ _
    · exact setTenant_keepsLaws_of_outbound rfl

theorem tailReadEnd_keepsLaws (t : TenantId) (fill : Option Byte) (s : State) : KeepsLaws s (tailReadEnd t fill s) := by
  unfold tailReadEnd
  split
  · exact tailEnd_keepsLaws _ _ _ _ _
  · exact .refl s

theorem recheckReadEnd_keepsLaws (t : TenantId) (fill : Option Byte) (s : State) :
    KeepsLaws s (recheckReadEnd t fill s) := by
  unfold recheckReadEnd
  split
  · exact tailEnd_keepsLaws _ _ _ _ _
  · exact .refl s

theorem recheckDeadline_keepsLaws (t : TenantId) (s : State) : KeepsLaws s (recheckDeadline t s) := by
  unfold recheckDeadline
  split
  · exact .atDeadline _ (.trans' (startRecheck_keepsLaws _ _) (setTenant_keepsLaws_of_outbound rfl))
  · exact .refl s

theorem recordWriteEnd_keepsLaws (t : TenantId) (result : BusEnd) (s : State) : KeepsLaws s (recordWriteEnd t result s) := by
  unfold recordWriteEnd
  split
  · split
    · exact .settle ((setWriter_keepsLaws s t none).trans (freeWritten_keepsLaws _ _))
    · exact ((breakTenant_keepsLaws _ _).trans (setWriter_keepsLaws _ _ _)).trans (freeWritten_keepsLaws _ _)
    · exact .trans' (freeWritten_keepsLaws _ _) (setTenant_keepsLaws_of_outbound (t := t) rfl)
  · exact .refl s

theorem reportWriteEnd_keepsLaws (t : TenantId) (result : BusEnd) (s : State) : KeepsLaws s (reportWriteEnd t result s) := by
  unfold reportWriteEnd
  split
  · split
    · exact freeDropped_keepsLaws _ _
    · exact refuse_keepsLaws _ _ _ _
    · exact .refl s
  · exact .refl s

/-! ### Descriptor reads -/

/-- A change of the service controller's fields alone, other than DESCRIPTOR_BASE. -/
def OnlyService (s u : State) : Prop :=
  u = { s with service := u.service, controlRead := u.controlRead, lastAction := u.lastAction, outcome := u.outcome
               startError := u.startError }

theorem keepsLaws_of_service {s u : State} (h : OnlyService s u) : KeepsLaws s u := by
  rw [h]
  exact ⟨fun c => { c with }, id, id, id, id⟩

theorem descriptorReadEnd_keepsLaws (who : DescriptorReader) (data : Option (List Byte)) (s : State) :
    KeepsLaws s (descriptorReadEnd who data s) := by
  unfold descriptorReadEnd
  split
  · unfold State.controlReadEnd
    split
    · exact (openWith_keepsLaws s admin _).trans (keepsLaws_of_service rfl)
    · exact keepsLaws_of_service rfl
    · exact .trans' (keepsLaws_of_service (s := s.reopen _) rfl) (setTenant_keepsLaws_of_outbound rfl)
    · exact keepsLaws_of_service rfl
    · exact .refl s
  · unfold State.openReadEnd
    split
    · split
      · split
        · exact (openWith_keepsLaws s _ _).trans (settle_reply_keepsLaws (State.begin _) _ _)
        · exact refuse_keepsLaws _ _ _ _
      · exact .refl s
    · exact .refl s

/-! ### The service controller -/

theorem start_keepsLaws (s : State) : KeepsLaws s (start s) := by
  unfold start
  split <;> exact keepsLaws_of_service rfl

theorem emergencyStop_keepsLaws (s : State) : KeepsLaws s (emergencyStop s) := by
  unfold emergencyStop
  split
  · have hdrain : KeepsLaws s
        { s.recordAction .emergencyStop .done with service := .draining .emergency s.service.waiting } :=
      keepsLaws_of_service rfl
    refine .settle ?_
    rw [Happening.checked_st]
    exact hdrain.trans (Happening.stopAll_keepsLaws (State.begin _) .emergency fun _ => true)
  · exact keepsLaws_of_service rfl

theorem adminReopen_keepsLaws (s : State) : KeepsLaws s (adminReopen s) := by
  unfold adminReopen
  split <;> exact keepsLaws_of_service rfl

theorem unknownAction_keepsLaws (code : Byte) (s : State) : KeepsLaws s (unknownAction code s) := keepsLaws_of_service rfl

theorem startService_keepsLaws (s : State) : KeepsLaws s (startService s) := by
  unfold startService
  split
  · unfold State.startServiceBody
    split
    · refine .reply ?_ _ _
      exact keepsLaws_of_service (u := { s with service := .serving }) rfl
    · exact refuse_keepsLaws _ _ _ _
  · exact .refl s

theorem stopService_keepsLaws (s : State) : KeepsLaws s (stopService s) := by
  unfold stopService
  split
  · next c _ =>
    unfold State.stopServiceBody
    split
    · have hdrain : KeepsLaws s { s.setStage c .draining with service := .draining .serviceStopped true } :=
        (setStage_keepsLaws s c .draining).trans (keepsLaws_of_service rfl)
      refine .settle ?_
      rw [Happening.checked_st]
      exact hdrain.trans (Happening.stopAll_keepsLaws (State.begin _) .serviceStopped fun _ => true)
    · exact refuse_keepsLaws _ _ _ _
  · exact .refl s

theorem alignBase_low (v : BitVec 64) : (alignBase v).extractLsb' 0 7 = 0 := by
  apply BitVec.eq_of_getLsbD_eq
  intro i hi
  rw [BitVec.getLsbD_extractLsb', alignBase, BitVec.getLsbD_append]
  simp [hi]

theorem descriptorBaseWrite_keepsLaws (w : BaseWrite) (s : State) : KeepsLaws s (descriptorBaseWrite w s) := by
  unfold descriptorBaseWrite
  split
  · refine ⟨fun c => { c with base := ?_ }, id, id, id, id⟩
    cases w <;> exact alignBase_low _
  · exact .refl s

/-! ### The two resets -/

theorem configInv_reset : ConfigInv State.reset where
  generation i := by simp [State.slot, State.reset]
  feed f := by simp [State.feed, State.reset, Feed.powerOn]
  margin := Nat.zero_le _
  account t := by simp [State.account, State.reset]
  policy := by decide
  rail r := by
    have h : State.reset.config r = RailConfig.powerOn := vget_replicate _ r
    rw [h]
    decide
  fault r := by simp [State.faultRecord, State.reset]
  base := by decide

theorem tierInv_reset : TierInv State.reset := by
  intro r
  simp [State.tierList, State.reset, tiersWithin]

theorem offerInv_reset : OfferInv State.reset := by
  intro r o ho
  simp [State.owned, State.reset] at ho

theorem markerInv_reset : MarkerInv State.reset := by
  intro t
  simp [State.tenant, State.reset, Tenant.powerOn]

theorem queueInv_reset : QueueInv State.reset := ⟨Nat.zero_le _, fun _ h => absurd h List.not_mem_nil, List.Pairwise.nil⟩

/-- Settles O3: every table of the reset state holds one record throughout. -/
theorem lawsHoldAtReset : Obligations.LawsHoldAtReset :=
  ⟨configInv_reset, tierInv_reset, offerInv_reset, markerInv_reset, queueInv_reset⟩

theorem atPowerOn_capacity (now : Nat) (high : Bool) : (Feed.atPowerOn now high).capacity = 0 := by
  cases high <;> rfl

theorem atPowerOn_qualify (now : Nat) (high : Bool) : (Feed.atPowerOn now high).qualify = 100 := by
  cases high <;> rfl

/-- The level of a feed's sense line, of the three that POWER_ON reads (R54). -/
def senseOf (sense0 sense1 sense2 : Bool) (f : FeedId) : Bool := #v[sense0, sense1, sense2].get f

theorem powerOn_feed (sense0 sense1 sense2 : Bool) (s : State) (f : FeedId) :
    (powerOn sense0 sense1 sense2 s).feed f = Feed.atPowerOn s.now (senseOf sense0 sense1 sense2 f) := by
  fin_cases f <;> rfl

theorem powerOn_keepsLaws (sense0 sense1 sense2 : Bool) (s : State) : KeepsLaws s (powerOn sense0 sense1 sense2 s) where
  config _ :=
    { configInv_reset with
      feed := fun f => by
        rw [powerOn_feed, atPowerOn_capacity, atPowerOn_qualify]
        decide }
  tier _ := tierInv_reset
  offer _ := offerInv_reset
  marker _ := markerInv_reset
  queue _ := queueInv_reset

theorem resetRail_keepsLaws (s : State) (r : RailId) : KeepsLaws s (s.resetRail r) :=
  keepsLaws_of_quiet (by simp [State.resetRail]) (by simp [State.resetRail]) (by simp [State.resetRail])
    (queueInv_of_queue_eq (enterFalling_queue s r))

theorem softReset_keepsLaws (s : State) : KeepsLaws s (softReset s) := by
  have hrails : ∀ (rs : List RailId) (v : State), KeepsLaws v (rs.foldl State.resetRail v) := by
    intro rs
    induction rs with
    | nil => exact fun v => .refl v
    | cons r rs ih => exact fun v => (resetRail_keepsLaws v r).trans (ih _)
  unfold softReset
  simp only
  refine (hrails (List.finRange 12) s).trans ?_
  generalize (List.finRange 12).foldl State.resetRail s = v
  exact
    { config := fun c =>
        { c with
          generation := fun i => by
            simp only [State.slot, vget_map, Slot.reset]
            split
            · exact nextGen_ne_zero _
            · exact c.generation i
          account := fun t => by
            simp only [State.account, vget_map]
            exact c.account t }
      tier := id
      offer := fun _ r o ho => by
        simp only [State.owned, vget_map] at ho
        cases ho
      marker := fun _ t => by
        simp only [State.tenant, vget_replicate]
        exact List.nodup_nil
      queue := fun _ => queueInv_reset }

/-! ### Every happening, every step -/

theorem keepsLaws_of_next {s v u : State} (k : KeepsLaws s v)
    (h : (Host.Outcome.next v : Host.Outcome State Fault Refusal) = .next u) : KeepsLaws s u := by
  cases h
  exact k

theorem exec_keepsLaws {i : Instr} {s u : State} (h : exec i s = .next u) : KeepsLaws s u := by
  cases i
  case powerOn => exact keepsLaws_of_next (powerOn_keepsLaws _ _ _ s) h
  case claim => exact keepsLaws_of_next (claim_keepsLaws _ s) h
  case adjust => exact keepsLaws_of_next (adjust_keepsLaws _ s) h
  case release => exact keepsLaws_of_next (release_keepsLaws _ s) h
  case revoke => exact keepsLaws_of_next (revoke_keepsLaws s) h
  case renew => exact keepsLaws_of_next (renew_keepsLaws _ s) h
  case queryLease => exact keepsLaws_of_next (queryLease_keepsLaws _ s) h
  case queryRail => exact keepsLaws_of_next (queryRail_keepsLaws _ _ s) h
  case queryBudget => exact keepsLaws_of_next (queryBudget_keepsLaws _ s) h
  case queryTenant => exact keepsLaws_of_next (queryTenant_keepsLaws _ s) h
  case setTiers => exact keepsLaws_of_next (setTiers_keepsLaws s) h
  case setRail => exact keepsLaws_of_next (setRail_keepsLaws s) h
  case setFeed => exact keepsLaws_of_next (setFeed_keepsLaws s) h
  case setMargin => exact keepsLaws_of_next (setMargin_keepsLaws s) h
  case setQuota => exact keepsLaws_of_next (setQuota_keepsLaws s) h
  case setQueuePolicy => exact keepsLaws_of_next (setQueuePolicy_keepsLaws s) h
  case assignRail => exact keepsLaws_of_next (assignRail_keepsLaws s) h
  case clearLockout => exact keepsLaws_of_next (clearLockout_keepsLaws s) h
  case offerRail => exact keepsLaws_of_next (offerRail_keepsLaws _ s) h
  case acceptRail => exact keepsLaws_of_next (acceptRail_keepsLaws _ s) h
  case withdrawOffer => exact keepsLaws_of_next (withdrawOffer_keepsLaws _ s) h
  case openTenant => exact keepsLaws_of_next (openTenant_keepsLaws s) h
  case closeTenant => exact keepsLaws_of_next (closeTenant_keepsLaws s) h
  case startService => exact keepsLaws_of_next (startService_keepsLaws s) h
  case stopService => exact keepsLaws_of_next (stopService_keepsLaws s) h
  case start => exact keepsLaws_of_next (start_keepsLaws s) h
  case emergencyStop => exact keepsLaws_of_next (emergencyStop_keepsLaws s) h
  case softReset => exact keepsLaws_of_next (softReset_keepsLaws s) h
  case adminReopen => exact keepsLaws_of_next (adminReopen_keepsLaws s) h
  case unknownAction => exact keepsLaws_of_next (unknownAction_keepsLaws _ s) h
  case descriptorBaseWrite => exact keepsLaws_of_next (descriptorBaseWrite_keepsLaws _ s) h
  case notify => exact keepsLaws_of_next (notify_keepsLaws _ _ s) h
  case ack => exact keepsLaws_of_next (clearInterrupt_keepsLaws s _) h
  case ignoredRegisterWrite => exact keepsLaws_of_next (.refl s) h
  case senseLineRise => exact keepsLaws_of_next (senseLineRise_keepsLaws _ s) h
  case senseLineFall => exact keepsLaws_of_next (senseLineFall_keepsLaws _ s) h
  case qualifyDeadline => exact keepsLaws_of_next (qualifyDeadline_keepsLaws _ s) h
  case pgRise => exact keepsLaws_of_next (pgRise_keepsLaws _ s) h
  case pgFall => exact keepsLaws_of_next (pgFall_keepsLaws _ s) h
  case lowReached => exact keepsLaws_of_next (lowReached_keepsLaws _ s) h
  case stageFault => exact keepsLaws_of_next (stageFault_keepsLaws _ _ s) h
  case rampDeadline => exact keepsLaws_of_next (rampDeadline_keepsLaws _ s) h
  case slewDeadline => exact keepsLaws_of_next (slewDeadline_keepsLaws _ _ s) h
  case dischargeDeadline => exact keepsLaws_of_next (dischargeDeadline_keepsLaws _ s) h
  case stepDelayEnd => exact keepsLaws_of_next (stepDelayEnd_keepsLaws _ s) h
  case backoffDeadline => exact keepsLaws_of_next (backoffDeadline_keepsLaws _ s) h
  case stableDeadline => exact keepsLaws_of_next (stableDeadline_keepsLaws _ s) h
  case lapse => exact keepsLaws_of_next (lapse_keepsLaws _ s) h
  case waitDeadline => exact keepsLaws_of_next (waitDeadline_keepsLaws _ s) h
  case offerExpiry => exact keepsLaws_of_next (offerExpiry_keepsLaws _ s) h
  case recheckDeadline => exact keepsLaws_of_next (recheckDeadline_keepsLaws _ s) h
  case descriptorReadEnd => exact keepsLaws_of_next (descriptorReadEnd_keepsLaws _ _ s) h
  case intakeGrant => exact keepsLaws_of_next (intakeGrant_keepsLaws s) h
  case headReadEnd => exact keepsLaws_of_next (headReadEnd_keepsLaws _ _ s) h
  case fillByteWriteEnd => exact keepsLaws_of_next (fillByteWriteEnd_keepsLaws _ _ s) h
  case writerStart => exact keepsLaws_of_next (writerStart_keepsLaws _ s) h
  case tailReadEnd => exact keepsLaws_of_next (tailReadEnd_keepsLaws _ _ s) h
  case recordWriteEnd => exact keepsLaws_of_next (recordWriteEnd_keepsLaws _ _ s) h
  case recheckReadEnd => exact keepsLaws_of_next (recheckReadEnd_keepsLaws _ _ s) h
  case reportWriteEnd => exact keepsLaws_of_next (reportWriteEnd_keepsLaws _ _ s) h

/-- The queue of happenings and the clock stand in none of the laws. -/
theorem step_keepsLaws {s u : State} (h : step s = .next u) : KeepsLaws s u := by
  unfold step at h
  split at h
  · next c rest _ =>
    have htaken : KeepsLaws s { s with pending := rest } := ⟨fun c => { c with }, id, id, id, id⟩
    exact htaken.trans (exec_keepsLaws h)
  · cases h
    exact ⟨fun c => { c with }, id, id, id, id⟩

/-- Settles O4: every happening keeps the ranges, whichever row it is. -/
theorem stepKeepsRanges : Obligations.StepKeepsRanges := fun _ _ inv h => (step_keepsLaws h).config inv

/-- Settles O5: tier lists and configurations are checked against each other wherever one is written. -/
theorem stepKeepsTiersWithinLimits : Obligations.StepKeepsTiersWithinLimits := fun _ _ inv h => (step_keepsLaws h).tier inv

/-- Settles O6: an owner changes only on a rail whose offer is gone. -/
theorem stepKeepsOfferLaw : Obligations.StepKeepsOfferLaw := fun _ _ inv h => (step_keepsLaws h).offer inv

/-- Settles O7: a marker joins a queue's tail only where its subject has none. -/
theorem stepKeepsOneMarkerPerSubject : Obligations.StepKeepsOneMarkerPerSubject :=
  fun _ _ inv h => (step_keepsLaws h).marker inv

/-- Settles O8: an entry joins the queue only where there is room, a RESTORE entry behind RESTORE entries alone. -/
theorem stepKeepsQueueForm : Obligations.StepKeepsQueueForm := fun _ _ inv h => (step_keepsLaws h).queue inv

end Sys2Proof.Machine

/-! PROOFS. Resets, CONTROL and DESCRIPTOR_BASE (R182 to R186, R191, R192). -/

namespace Sys2Proof.Machine

/-! ### The front of the queue (log entry 1) and POWER_ON (R191) -/

/-- Settles O1: both sides are the meaning of the happening in front. -/
theorem stepRunsFront : Obligations.StepRunsFront := fun _ _ _ => rfl

/-- Settles O2: every table of the reset state holds one record throughout, and the feeds are read from the sense lines. -/
theorem powerOnTakesPowerOnValues : Obligations.PowerOnTakesPowerOnValues := by
  intro sense0 sense1 sense2 s
  have hfeed := powerOn_feed sense0 sense1 sense2 s
  have hrail : ∀ r, (powerOn sense0 sense1 sense2 s).rail r = Rail.powerOn := fun r => vget_replicate _ r
  have htenant : ∀ t, (powerOn sense0 sense1 sense2 s).tenant t = Tenant.powerOn := fun t => vget_replicate _ t
  have hport : ∀ r, (powerOn sense0 sense1 sense2 s).stagePort r = (false, 0, 0) := by
    intro r
    rw [State.stagePort, hrail]
    rfl
  refine ⟨_, rfl, fun i => vget_replicate _ i, fun r => vget_replicate _ r, ?_, ?_, ?_, ?_, rfl, fun t => vget_replicate _ t,
    rfl, rfl, rfl, rfl, rfl, rfl, fun r => vget_replicate _ r, hrail, hport, fun r => vget_replicate _ r,
    fun r => vget_replicate _ r, htenant, ?_, fun c => vget_replicate _ c, rfl, rfl, rfl, rfl, rfl, rfl, rfl, rfl, rfl, rfl⟩
  · exact fun f => ⟨by rw [hfeed, atPowerOn_capacity], by rw [hfeed, atPowerOn_qualify]⟩
  · rw [hfeed]
    cases sense0 <;> rfl
  · rw [hfeed]
    cases sense1 <;> rfl
  · rw [hfeed]
    cases sense2 <;> rfl
  · intro t
    rw [State.interruptLine, htenant]
    rfl

/-! ### DESCRIPTOR_BASE (R182) -/

theorem alignBase_getLsbD (v : BitVec 64) (i : Nat) : (alignBase v).getLsbD i = (decide (7 ≤ i) && v.getLsbD i) := by
  rw [alignBase, BitVec.getLsbD_append, BitVec.getLsbD_extractLsb']
  by_cases h : i < 7
  · simp [h]
  · have h7 : 7 ≤ i := Nat.le_of_not_lt h
    have hi : 7 + (i - 7) = i := by omega
    by_cases h64 : i < 64
    · simp [h, h7, hi, show i - 7 < 57 by omega]
    · simp [h, hi, show ¬ i - 7 < 57 by omega, BitVec.getLsbD_of_ge v i (by omega)]

/-- A mask of the bits from one position to another. -/
theorem mask_getLsbD : ∀ i : Fin 64,
    (0xFFFFFFFFFFFFFF80#64).getLsbD i = decide (7 ≤ i.val) ∧
      (0xFFFFFFFF00000000#64).getLsbD i = decide (32 ≤ i.val) ∧
      (0xFFFFFF80#64).getLsbD i = decide (7 ≤ i.val ∧ i.val < 32) := by decide

theorem baseWritten_whole (v old : BitVec 64) : baseWritten (.whole v) old = v &&& 0xFFFFFFFFFFFFFF80#64 := by
  apply BitVec.eq_of_getLsbD_eq
  intro i hi
  obtain ⟨hmask, -, -⟩ := mask_getLsbD ⟨i, hi⟩
  rw [BitVec.getLsbD_and, hmask, baseWritten, alignBase_getLsbD, Bool.and_comm]

theorem baseWritten_lower (h : BitVec 32) (old : BitVec 64) : baseWritten (.lower h) old =
    (old &&& 0xFFFFFFFF00000000#64) ||| (h.setWidth 64 &&& 0xFFFFFF80#64) := by
  apply BitVec.eq_of_getLsbD_eq
  intro i hi
  obtain ⟨-, hupper, hlower⟩ := mask_getLsbD ⟨i, hi⟩
  rw [BitVec.getLsbD_or, BitVec.getLsbD_and, BitVec.getLsbD_and, hupper, hlower, baseWritten, alignBase_getLsbD,
    BitVec.getLsbD_append, BitVec.getLsbD_extractLsb', BitVec.getLsbD_setWidth]
  by_cases h32 : i < 32
  · simp [h32, hi, Nat.not_le.mpr h32, Bool.and_comm]
  · have hi' : 32 + (i - 32) = i := by omega
    simp [h32, hi', show i - 32 < 32 by omega, show 7 ≤ i by omega, show 32 ≤ i by omega]

theorem baseWritten_upper (h : BitVec 32) (old : BitVec 64) : baseWritten (.upper h) old =
    (h.setWidth 64 <<< 32) ||| (old &&& 0xFFFFFF80#64) := by
  apply BitVec.eq_of_getLsbD_eq
  intro i hi
  obtain ⟨-, -, hlower⟩ := mask_getLsbD ⟨i, hi⟩
  rw [BitVec.getLsbD_or, BitVec.getLsbD_and, hlower, baseWritten, alignBase_getLsbD, BitVec.getLsbD_append,
    BitVec.getLsbD_extractLsb', BitVec.getLsbD_shiftLeft, BitVec.getLsbD_setWidth]
  by_cases h32 : i < 32
  · simp [h32, hi, Bool.and_comm]
  · simp [h32, hi, show i - 32 < 64 by omega, show 7 ≤ i by omega]

/-- Settles O44: a write is taken in IDLE with no control read, and a half write keeps the other half of the old value. -/
theorem descriptorBaseWrites : Obligations.DescriptorBaseWrites := by
  intro s
  refine ⟨fun hidle hread v h => ?_, fun hbusy w => ?_⟩
  · have htaken : ∀ w, exec (.descriptorBaseWrite w) s = .next { s with descriptorBase := baseWritten w s.descriptorBase } :=
      fun w => congrArg Host.Outcome.next (if_pos ⟨hidle, hread⟩)
    rw [htaken, htaken, htaken, baseWritten_whole, baseWritten_lower, baseWritten_upper]
    exact ⟨rfl, rfl, rfl⟩
  · refine congrArg Host.Outcome.next (if_neg ?_)
    rintro ⟨hidle, hread⟩
    exact hbusy.elim (· hidle) (· hread)

/-! ### Searches of the contexts -/

theorem findContext_eq_none {s : State} {t : TenantId} {p : Stage → Bool}
    (h : ∀ c x, s.context c = some x → x.tenant = t → p x.stage = false) : s.findContext t p = none := by
  unfold State.findContext
  rw [List.findSome?_eq_none_iff]
  intro c _
  split
  · next x hx =>
    rw [if_neg]
    rintro ⟨ht, hp⟩
    rw [h c x hx ht] at hp
    cases hp
  · rfl

theorem findContext_isSome {s : State} {t : TenantId} {p : Stage → Bool} {c : CtxId} {x : Context}
    (hx : s.context c = some x) (ht : x.tenant = t) (hp : p x.stage = true) : (s.findContext t p).isSome = true := by
  unfold State.findContext
  rw [List.findSome?_isSome_iff]
  exact ⟨c, List.mem_finRange c, by simp [hx, ht, hp]⟩

/-- Whatever context the search finds, one that satisfies the test is held. -/
theorem takenCommand_eq_none {s : State} {t : TenantId} (h : ∀ c x, s.context c = some x → x.tenant = t → x.stage ≠ .taken) :
    s.takenCommand t = none := by
  have hnone : s.findContext t Stage.isTaken = none := by
    refine findContext_eq_none fun c x hx ht => ?_
    have hne := h c x hx ht
    unfold Stage.isTaken
    split
    · next hs => exact absurd hs hne
    · rfl
  simp only [State.takenCommand, hnone]

/-! ### CONTROL (R183 to R185) -/

theorem descriptorAddr_admin (s : State) : s.descriptorAddr admin = s.descriptorBase := by
  simp [State.descriptorAddr]

theorem start_taken {s : State} (hidle : s.service = .idle) (hread : s.controlRead = none) : start s =
    { s with lastAction := .start, outcome := .pending, controlRead := some (.start s.descriptorBase) } := by
  rw [start, if_pos ⟨hidle, hread⟩, descriptorAddr_admin]
  rfl

theorem start_ignored {s : State} (h : s.service ≠ .idle ∨ s.controlRead ≠ none) :
    start s = { s with lastAction := .start, outcome := .ignored } := by
  rw [start, if_neg]
  · rfl
  · rintro ⟨hidle, hread⟩
    exact h.elim (· hidle) (· hread)

theorem openUnderWay_eq_false {s : State}
    (h : ∀ c x, s.context c = some x → x.tenant = admin → x.stage ≠ .taken ∧ x.stage.isOpenRead = false) :
    s.openUnderWay = false := by
  have hread : s.findContext admin Stage.isOpenRead = none := findContext_eq_none fun c x hx ht => (h c x hx ht).2
  have htaken : s.takenCommand admin = none := takenCommand_eq_none fun c x hx ht => (h c x hx ht).1
  simp [State.openUnderWay, hread, htaken]

theorem adminReopen_taken {s : State} (hbroken : (s.tenant admin).state = .broken) (hread : s.controlRead = none)
    (hopen : s.openUnderWay = false) : adminReopen s =
      { s with lastAction := .adminReopen, outcome := .pending, controlRead := some (.adminReopen s.descriptorBase) } := by
  rw [adminReopen, if_pos ⟨hbroken, hread, hopen⟩, descriptorAddr_admin]
  rfl

theorem adminReopen_ignored {s : State}
    (h : (s.tenant admin).state ≠ .broken ∨ s.controlRead ≠ none ∨ s.openUnderWay = true) :
    adminReopen s = { s with lastAction := .adminReopen, outcome := .ignored } := by
  rw [adminReopen, if_neg]
  · rfl
  · rintro ⟨hbroken, hread, hopen⟩
    obtain h | h | h := h
    · exact h hbroken
    · exact h hread
    · rw [hopen] at h
      cases h

/-- Settles O43: each action is taken where its conditions hold and ignored where one of them fails. -/
theorem controlWritesAreRecorded : Obligations.ControlWritesAreRecorded := by
  intro s
  refine ⟨fun hidle hread => congrArg _ (start_taken hidle hread), fun h => congrArg _ (start_ignored h), fun hidle => ?_,
    fun hbroken hread h => congrArg _ (adminReopen_taken hbroken hread (openUnderWay_eq_false h)),
    fun h => congrArg _ (adminReopen_ignored ?_), fun _ => rfl⟩
  · have hclosed : s.openable = false := by simp [State.openable, hidle]
    show Host.Outcome.next (emergencyStop s) = _
    rw [emergencyStop, hclosed]
    rfl
  · refine h.imp_right (Or.imp_right ?_)
    rintro ⟨c, x, hx, ht, hp⟩
    simp [State.openUnderWay, findContext_isSome hx ht hp]

/-! ### SOFT_RESET (R192) -/

/-- A rail's live state after a soft reset (R117). -/
def State.railAfterReset (s : State) (r : RailId) : Rail :=
  if (s.rail r).powered then
    { s.rail r with
      state := .falling (s.now + (s.config r).discharge), drive := .held ((s.rail r).drive.at s.now), lease := none }
  else { s.rail r with lease := none }

theorem resetRail_eq (s : State) (r : RailId) : s.resetRail r =
    { s with rails := vset s.rails r (s.railAfterReset r), faults := vset s.faults r { s.faultRecord r with stable := none } } := by
  unfold State.resetRail State.enterFalling State.railAfterReset
  split
  · simp [State.setMembership, State.cancelStable, State.setRail, State.setFaultRecord, State.rail, State.faultRecord]
  · simp [State.setMembership, State.cancelStable, State.setRail, State.setFaultRecord, State.rail]

/-- The rails that a soft reset has reached are as R117 says, the others as they were. -/
theorem foldl_resetRail (rs : List RailId) (hrs : rs.Nodup) (s : State) : ∃ v w,
    rs.foldl State.resetRail s = { s with rails := v, faults := w } ∧
      (∀ r, vget v r = if r ∈ rs then s.railAfterReset r else s.rail r) ∧
      ∀ r, vget w r = if r ∈ rs then { s.faultRecord r with stable := none } else s.faultRecord r := by
  induction rs generalizing s with
  | nil => exact ⟨s.rails, s.faults, rfl, fun _ => rfl, fun _ => rfl⟩
  | cons q rs ih =>
    obtain ⟨hq, hrs⟩ := List.nodup_cons.mp hrs
    obtain ⟨v, w, heq, hv, hw⟩ := ih hrs (s.resetRail q)
    have hrail : ∀ r, (s.resetRail q).rail r = if r = q then s.railAfterReset q else s.rail r := by
      intro r
      rw [resetRail_eq]
      exact vget_vset _ _ _ _
    have hfault : ∀ r, (s.resetRail q).faultRecord r =
        if r = q then { s.faultRecord q with stable := none } else s.faultRecord r := by
      intro r
      rw [resetRail_eq]
      exact vget_vset _ _ _ _
    have hafter : ∀ r, r ≠ q → (s.resetRail q).railAfterReset r = s.railAfterReset r := by
      intro r hr
      rw [State.railAfterReset, hrail, if_neg hr, resetRail_eq]
      rfl
    refine ⟨v, w, ?_, fun r => ?_, fun r => ?_⟩
    · rw [List.foldl_cons, heq, resetRail_eq]
    · rw [hv]
      by_cases hr : r = q
      · simp [hr, hq, hrail]
      · simp [hr, hafter, hrail]
    · rw [hw]
      by_cases hr : r = q
      · simp [hr, hq, hfault]
      · simp [hr, hfault]

theorem slot_reset_eq (x : Slot) : x.reset =
    if x.lease.isSome then { gen := if x.gen = 4095 then 1 else x.gen + 1, lease := none } else x := by
  unfold Slot.reset
  cases h : x.lease <;> simp [nextGen]

/-- Settles O45: the rails are reached one by one, and each other record is written whole. -/
theorem softResetReturnsToIdle : Obligations.SoftResetReturnsToIdle := by
  intro s
  obtain ⟨v, w, heq, hv, hw⟩ := foldl_resetRail (List.finRange 12) (List.nodup_finRange 12) s
  have hrails : ∀ r, vget v r = s.railAfterReset r := fun r => by rw [hv, if_pos (List.mem_finRange r)]
  have hfaults : ∀ r, vget w r = { s.faultRecord r with stable := none } :=
    fun r => by rw [hw, if_pos (List.mem_finRange r)]
  refine ⟨softReset s, rfl, ?_⟩
  unfold softReset
  rw [heq]
  exact ⟨fun i => (vget_map _ _ i).trans (slot_reset_eq _), rfl, rfl, rfl, fun t => vget_map _ _ t, rfl, rfl, rfl, rfl, rfl, rfl,
    rfl, hrails, hfaults, fun r => vget_map _ _ r, fun t => vget_replicate _ t, fun c => vget_replicate _ c, rfl, rfl, rfl, rfl,
    rfl, rfl, rfl, rfl, rfl, rfl⟩

end Sys2Proof.Machine

/-! PROOFS. Descriptors (R155 to R157, R184, R185). -/

namespace Sys2Proof.Machine

/-! ### Which descriptors are good -/

theorem uint_lt (r : List Byte) (off n : Nat) : uint r off n < 256 ^ n := by
  induction n generalizing off with
  | zero => exact Nat.one_pos
  | succ n ih =>
    have hbyte := (byteAt r off).isLt
    have hrest := ih (off + 1)
    rw [uint, Nat.pow_succ]
    omega

theorem readDescriptor_subBase (r : List Byte) : (readDescriptor r).subBase.toNat = uint r 0 8 :=
  (BitVec.toNat_ofNat _ _).trans (Nat.mod_eq_of_lt (uint_lt r 0 8))

theorem readDescriptor_compBase (r : List Byte) : (readDescriptor r).compBase.toNat = uint r 8 8 :=
  (BitVec.toNat_ofNat _ _).trans (Nat.mod_eq_of_lt (uint_lt r 8 8))

/-- Two ranges that are not empty have a common point exactly when each begins before the other ends. -/
theorem exists_common_iff {a b m n : Nat} (hm : 0 < m) (hn : 0 < n) :
    (∃ x, (a ≤ x ∧ x < a + m) ∧ b ≤ x ∧ x < b + n) ↔ a < b + n ∧ b < a + m := by
  constructor
  · rintro ⟨x, hx⟩
    omega
  · exact fun h => ⟨max a b, by omega⟩

theorem pos_of_mem_ringSizes {n : Nat} (h : n ∈ ringSizes) : 0 < n :=
  (by decide : ∀ n ∈ ringSizes, 0 < n) n h

theorem overlap_eq_false_iff {d : Descriptor} (hsub : d.subSize ∈ ringSizes) (hcomp : d.compSize ∈ ringSizes) :
    d.overlap = false ↔
      ¬ ∃ x, (d.subBase.toNat ≤ x ∧ x < d.subBase.toNat + 64 * d.subSize) ∧
        d.compBase.toNat ≤ x ∧ x < d.compBase.toNat + 16 * d.compSize := by
  have hm := pos_of_mem_ringSizes hsub
  have hn := pos_of_mem_ringSizes hcomp
  rw [exists_common_iff (by omega) (by omega), Descriptor.overlap, decide_eq_false_iff_not]

/-- Settles O47: the overlap test compares ends, which is the absence of a common byte for rings that are not empty. -/
theorem goodDescriptors : Obligations.GoodDescriptors := by
  intro bytes
  have hjudge : (judgeDescriptor bytes).isSome = true ↔
      descriptorValid bytes = true ∧ (readDescriptor bytes).subSize ∈ ringSizes ∧
        (readDescriptor bytes).compSize ∈ ringSizes ∧ (readDescriptor bytes).subBase.toNat % 64 = 0 ∧
        (readDescriptor bytes).compBase.toNat % 16 = 0 ∧ (readDescriptor bytes).overlap = false := by
    unfold judgeDescriptor
    simp only
    split
    · next h => exact iff_of_true rfl h
    · next h => exact iff_of_false (by decide) h
  rw [hjudge]
  constructor
  · rintro ⟨hvalid, hsub, hcomp, hsubBase, hcompBase, hoverlap⟩
    rw [overlap_eq_false_iff hsub hcomp] at hoverlap
    rw [readDescriptor_subBase] at hsubBase hoverlap
    rw [readDescriptor_compBase] at hcompBase hoverlap
    exact ⟨hvalid, hsub, hcomp, hsubBase, hcompBase, hoverlap⟩
  · rintro ⟨hvalid, hsub, hcomp, hsubBase, hcompBase, hcommon⟩
    refine ⟨hvalid, hsub, hcomp, ?_, ?_, ?_⟩
    · rw [readDescriptor_subBase]
      exact hsubBase
    · rw [readDescriptor_compBase]
      exact hcompBase
    · rw [overlap_eq_false_iff (d := readDescriptor bytes) hsub hcomp, readDescriptor_subBase, readDescriptor_compBase]
      exact hcommon

/-! ### The ends of descriptor reads -/

theorem descriptorOutcome_ok {data : Option (List Byte)} {d : Descriptor} (h : data.bind judgeDescriptor = some d) :
    descriptorOutcome data = .ok d := by
  obtain ⟨bytes, rfl, hd⟩ := Option.bind_eq_some_iff.mp h
  simp only [descriptorOutcome, hd]

theorem descriptorOutcome_error {data : Option (List Byte)} (h : data.bind judgeDescriptor = none) :
    descriptorOutcome data = .error (if data = none then .busError else .badDescriptor) := by
  cases data with
  | none => rfl
  | some bytes =>
    rw [Option.bind_some] at h
    simp only [descriptorOutcome, h]
    rfl

theorem actionEnded_failed (s : State) (action : LastAction) (data : Option (List Byte)) :
    s.actionEnded action (if data = none then .busError else .badDescriptor) =
      { s with
        controlRead := none, lastAction := action, outcome := .failed
        startError := if data = none then .busError else .badDescriptor } := by
  cases data <;> rfl

section
variable {s : State} {data : Option (List Byte)} {d : Descriptor} {addr : BitVec 64}

theorem startRead_good (hr : s.controlRead = some (.start addr)) (hd : data.bind judgeDescriptor = some d) :
    s.controlReadEnd data = { (s.openWith admin d).actionEnded .start .none with service := .configuring } := by
  simp only [State.controlReadEnd, hr, descriptorOutcome_ok hd]

theorem startRead_bad (hr : s.controlRead = some (.start addr)) (hd : data.bind judgeDescriptor = none) :
    s.controlReadEnd data = s.actionEnded .start (if data = none then .busError else .badDescriptor) := by
  simp only [State.controlReadEnd, hr, descriptorOutcome_error hd]

theorem reopenRead_good (hr : s.controlRead = some (.adminReopen addr)) (hd : data.bind judgeDescriptor = some d) :
    s.controlReadEnd data = (s.reopen d).actionEnded .adminReopen .none := by
  simp only [State.controlReadEnd, hr, descriptorOutcome_ok hd]

theorem reopenRead_bad (hr : s.controlRead = some (.adminReopen addr)) (hd : data.bind judgeDescriptor = none) :
    s.controlReadEnd data = s.actionEnded .adminReopen (if data = none then .busError else .badDescriptor) := by
  simp only [State.controlReadEnd, hr, descriptorOutcome_error hd]

end

/-- A command in a context of a tenant whose queue takes entries, refused or finished with a status alone, changes tenants and
contexts alone (R169). -/
theorem refuse_finishes_context {s : State} {t : TenantId} {c : CtxId} {x : Context} (hx : s.context c = some x)
    (ht : x.tenant = t) (hh : (s.tenant t).hears = true) (status : Status) :
    Finishes s (s.refuse c status .none) t c status .none none 0 [] ∧ OnlyRings s (s.refuse c status .none) := by
  subst ht
  have e : s.refuse c status .none = s.finish c x (completionOf c x status .none none 0) [] := by
    unfold State.refuse
    rw [settle_answer s.begin c x hx rfl (fun h => nomatch h) (fun h => nomatch h)]
    rfl
  rw [e]
  exact ⟨finishes_finish s c x hx hh status .none none 0 [], onlyRings_finish _ _ _ _ _⟩

section
variable {s : State} {c : CtxId} {x : Context} {n : TenantId} {addr : BitVec 64} {data : Option (List Byte)}

theorem openRead_good {d : Descriptor} (hf : s.findContext admin Stage.isOpenRead = some (c, x))
    (hs : x.stage = .openRead n addr) (hd : data.bind judgeDescriptor = some d) :
    s.openReadEnd data = (s.openWith n d).refuse c .ok .none := by
  simp only [State.openReadEnd, hf, hs, descriptorOutcome_ok hd]
  rfl

theorem openRead_bad (hf : s.findContext admin Stage.isOpenRead = some (c, x)) (hs : x.stage = .openRead n addr)
    (hd : data.bind judgeDescriptor = none) :
    s.openReadEnd data = s.refuse c (if data = none then .busError else .badDescriptor) .none := by
  simp only [State.openReadEnd, hf, hs, descriptorOutcome_error hd]
  cases data <;> rfl

end

/-- Settles O46: the control read's four outcomes are written out, and an OPEN_TENANT finishes on the state that its outcome
leaves. -/
theorem descriptorReadsEnd : Obligations.DescriptorReadsEnd := by
  intro s data d addr
  refine ⟨fun hr hd => congrArg _ (startRead_good hr hd),
    fun hr hd => congrArg _ ((startRead_bad hr hd).trans (actionEnded_failed s _ data)),
    fun hr hd => congrArg _ (reopenRead_good hr hd),
    fun hr hd => congrArg _ ((reopenRead_bad hr hd).trans (actionEnded_failed s _ data)), ?_⟩
  intro c x n hf hs hn hh
  obtain ⟨hx, ht, -⟩ := findContext_some hf
  cases hd : data.bind judgeDescriptor with
  | some d' =>
    have hopen : OnlyRings s (s.openWith n d') := onlyRings_setTenant s n _
    have hh' : ((s.openWith n d').tenant admin).hears = true := by
      rw [State.openWith, State.tenant_setTenant, if_neg hn.symm]
      exact hh
    obtain ⟨hfin, hrings⟩ := refuse_finishes_context (s := s.openWith n d') hx ht hh' .ok
    have hr := hopen.trans hrings
    refine ⟨_, congrArg Host.Outcome.next (openRead_good hf hs hd), hr.keepsLeases, hr.keepsBudget, hr.keepsQueue, hr.keepsRails, hr.keepsTiers,
      hr.keepsOwners, hr.keepsService, hr.keepsClock, ?_, ?_, fun _ h => nomatch h⟩
    · intro h
      cases h
      exact hfin
    · rintro rfl
      cases hd
  | none =>
    obtain ⟨hfin, hr⟩ := refuse_finishes_context hx ht hh (if data = none then .busError else .badDescriptor)
    refine ⟨_, congrArg Host.Outcome.next (openRead_bad hf hs hd), hr.keepsLeases, hr.keepsBudget, hr.keepsQueue, hr.keepsRails, hr.keepsTiers,
      hr.keepsOwners, hr.keepsService, hr.keepsClock, ?_, ?_, ?_⟩
    · exact fun h => absurd h (Option.some_ne_none d).symm
    · intro h
      simpa only [if_pos h] using hfin
    · intro h _
      simpa only [if_neg h] using hfin

end Sys2Proof.Machine

/-! PROOFS. The rings: TENANT_SIGNAL writes, intake, the writer, report writes, ring errors (R160 to R176). -/

namespace Sys2Proof.Machine

/-! ### Writes of tenants and contexts -/

theorem setTenant_setTenant (s : State) (t : TenantId) (x y : Tenant) : (s.setTenant t x).setTenant t y = s.setTenant t y := by
  simp only [State.setTenant, vset_vset]

theorem setContext_setContext (s : State) (c : CtxId) (x y : Option Context) :
    (s.setContext c x).setContext c y = s.setContext c y := by
  simp only [State.setContext, vset_vset]

theorem setTenant_tenant (s : State) (t : TenantId) : s.setTenant t (s.tenant t) = s := by
  simp only [State.setTenant, State.tenant, vset_vget]

theorem setStage_eq {s : State} {c : CtxId} {x : Context} (hx : s.context c = some x) (stage : Stage) :
    s.setStage c stage = s.setContext c (some { x with stage := stage }) := by
  simp only [State.setStage, hx]

theorem freeContext_eq {s : State} {c : CtxId} {x : Context} (hx : s.context c = some x) :
    s.freeContext c =
      (s.setContext c none).setTenant x.tenant { s.tenant x.tenant with inFlight := (s.tenant x.tenant).inFlight - 1 } := by
  simp only [State.freeContext, hx]

theorem endIntake_eq {s : State} {t : TenantId} {c : CtxId} {x : Context} (hx : s.context c = some x) (ht : x.tenant = t) :
    s.endIntake t c =
      (s.setContext c none).setTenant t
        { s.tenant t with underWay := false, inFlight := (s.tenant t).inFlight - 1 } := by
  subst ht
  rw [State.endIntake, freeContext_eq hx, State.setUnderWay, State.tenant_setTenant_same, setTenant_setTenant]

theorem mapStages_tenant (s : State) (t : TenantId) (f : Stage → Stage) (n : TenantId) :
    (s.mapStages t f).tenant n = s.tenant n := rfl

theorem mapStages_setTenant (s : State) (t : TenantId) (f : Stage → Stage) (n : TenantId) (x : Tenant) :
    (s.mapStages t f).setTenant n x = (s.setTenant n x).mapStages t f := rfl

theorem setTenant_setContext (s : State) (t : TenantId) (x : Tenant) (c : CtxId) (y : Option Context) :
    (s.setTenant t x).setContext c y = (s.setContext c y).setTenant t x := rfl

/-- A command that finishes after a change of its own stage finishes from the state before it. -/
theorem Finishes.of_setStage {s u : State} {t : TenantId} {c : CtxId} {x : Context} {stage : Stage} {status : Status}
    {detail : Detail} {handle : Option Handle} {charge : Nat} {marks : List (TenantId × Subject × Reason)}
    (hx : s.context c = some x)
    (h : Finishes (s.setContext c (some { x with stage := stage })) u t c status detail handle charge marks) :
    Finishes s u t c status detail handle charge marks := by
  obtain ⟨y, hy, hctx, hothers, htenant, hmarks, hlast⟩ := h
  rw [State.context_setContext_same] at hy
  cases hy
  refine ⟨x, hx, hctx, fun d hd => ?_, htenant, hmarks, hlast⟩
  rw [hothers d hd, State.context_setContext, if_neg hd]

/-! ### NOTIFY and ACK (R160, R173, R175) -/

theorem startRecheck_eq (s : State) (t : TenantId) :
    s.startRecheck t =
      s.setTenant t
        { s.tenant t with
          writer :=
            if (s.tenant t).writer = none then some (.recheckRead (s.tenant t).tailAddr .live) else (s.tenant t).writer } := by
  unfold State.startRecheck
  simp only
  cases hw : (s.tenant t).writer with
  | none => rfl
  | some w =>
    simp only [reduceCtorEq, if_false]
    rw [← hw, setTenant_tenant]

/-- What a NOTIFY taken in OPEN leaves of its tenant. -/
def Tenant.notified (x : Tenant) : Tenant :=
  { x with
    scanPending := true
    writer := if x.stalled = true ∧ x.writer = none then some (.recheckRead x.tailAddr .live) else x.writer }

theorem notifyOpen_eq (s : State) (t : TenantId) :
    s.notifyOpen t = (s.setTenant t (s.tenant t).notified).mapStages t Stage.noted := by
  unfold State.notifyOpen
  simp only [mapStages_tenant, State.tenant_setTenant_same]
  cases hs : (s.tenant t).stalled with
  | false => simp [Tenant.notified, hs]
  | true =>
    rw [if_pos rfl, startRecheck_eq, mapStages_tenant, State.tenant_setTenant_same]
    rw [mapStages_setTenant, setTenant_setTenant]
    simp [Tenant.notified, hs, Tenant.tailAddr]

theorem noted_eq (y : Stage) : y.noted = match y with | .headRead addr _ fate => .headRead addr true fate | y => y := by
  cases y <;> rfl

/-- Settles O48: a NOTIFY taken in OPEN is one write of the tenant and one pass over its contexts. -/
theorem signalWrites : Obligations.SignalWrites := by
  intro s t alsoAck
  refine ⟨rfl, fun hstate => ?_, fun hstate => ?_⟩
  · show Host.Outcome.next (notify t alsoAck s) = _
    cases alsoAck with
    | false => simp [notify, hstate]
    | true => simp [notify, State.clearInterrupt, hstate]
  · have hopen : ((if alsoAck then s.clearInterrupt t else s).tenant t).state = .isOpen := by
      cases alsoAck
      · exact hstate
      · rw [if_pos rfl, State.clearInterrupt, State.tenant_setTenant_same]
        exact hstate
    have hu : notify t alsoAck s = (if alsoAck then s.clearInterrupt t else s).notifyOpen t := if_pos hopen
    rw [notifyOpen_eq] at hu
    have hack : OnlyRings s (if alsoAck then s.clearInterrupt t else s) := by
      cases alsoAck <;> rfl
    have hr : OnlyRings s (notify t alsoAck s) := by
      rw [hu]
      exact hack.trans ((onlyRings_setTenant _ _ _).trans (onlyRings_mapStages _ _ _))
    have hctx : ∀ c, (notify t alsoAck s).context c =
        (s.context c).map fun x => if x.tenant = t then { x with stage := x.stage.noted } else x := by
      intro c
      rw [hu, mapStages_context]
      cases alsoAck <;> rfl
    refine ⟨_, rfl, ?_, fun n hn => ?_, fun c x hx => ?_, fun c hx => ?_, hr.lastGranted, hr.keepsLeases, hr.keepsBudget,
      hr.keepsQueue, hr.keepsRails, hr.keepsTiers, hr.keepsOwners, hr.keepsService, hr.keepsClock⟩
    · show (notify t alsoAck s).tenant t = _
      rw [hu, mapStages_tenant, State.tenant_setTenant_same]
      cases alsoAck
      · simp [Tenant.notified]
      · simp [Tenant.notified, State.clearInterrupt, Tenant.tailAddr]
    · show (notify t alsoAck s).tenant n = _
      rw [hu, mapStages_tenant, State.tenant_setTenant, if_neg hn]
      cases alsoAck
      · rfl
      · rw [if_pos rfl, State.clearInterrupt, State.tenant_setTenant, if_neg hn]
    · show (notify t alsoAck s).context c = _
      rw [hctx, hx, Option.map_some]
      refine congrArg some ?_
      split
      · exact congrArg (fun stage => { x with stage := stage }) (noted_eq x.stage)
      · rfl
    · show (notify t alsoAck s).context c = _
      rw [hctx, hx]
      rfl

/-! ### Intake (R161, R164, R165, R167) -/

theorem eligible_iff (x : Tenant) : x.eligible = true ↔
    x.state = .isOpen ∧ x.scanPending = true ∧ x.inFlight < 12 ∧ x.underWay = false := by
  simp [Tenant.eligible, and_assoc]

/-- Of the tenants that satisfy a test, the search after tenant `g` finds the one with the least distance after `g`. -/
theorem find_tenantsAfter {g t : TenantId} {p : TenantId → Bool} (hp : p t = true)
    (hmin : ∀ n, p n = true → (t - g - 1).val ≤ (n - g - 1).val) : (tenantsAfter g).find? p = some t := by
  have hbefore : ∀ n, (n - g - 1).val < (t - g - 1).val → p n = false := by
    intro n hn
    cases hpn : p n with
    | false => rfl
    | true => exact absurd (hmin n hpn) (by omega)
  have hcases : t = g + 1 ∨ t = g + 2 ∨ t = g + 3 ∨ t = g := by decide +revert
  have hdistance : ∀ g : TenantId,
      (g + 1 - g - 1).val = 0 ∧ (g + 2 - g - 1).val = 1 ∧ (g + 3 - g - 1).val = 2 ∧ (g - g - 1).val = 3 := by decide
  obtain ⟨h1, h2, h3, h4⟩ := hdistance g
  unfold tenantsAfter
  obtain rfl | rfl | rfl | rfl := hcases
  · rw [List.find?_cons_of_pos hp]
  · rw [List.find?_cons_of_neg (by simp [hbefore (g + 1) (by omega)]), List.find?_cons_of_pos hp]
  · rw [List.find?_cons_of_neg (by simp [hbefore (g + 1) (by omega)]),
      List.find?_cons_of_neg (by simp [hbefore (g + 2) (by omega)]), List.find?_cons_of_pos hp]
  · rw [List.find?_cons_of_neg (by simp [hbefore (t + 1) (by omega)]),
      List.find?_cons_of_neg (by simp [hbefore (t + 2) (by omega)]),
      List.find?_cons_of_neg (by simp [hbefore (t + 3) (by omega)]), List.find?_cons_of_pos hp]

theorem freePool_some {s : State} (h : ∃ c, s.context c = none) : ∃ c, s.freePool = some c ∧ s.context c = none := by
  obtain ⟨c, hc⟩ := h
  have hsome : s.freePool.isSome = true := by
    rw [State.freePool, List.find?_isSome]
    exact ⟨c, List.mem_finRange c, by rw [hc]; rfl⟩
  obtain ⟨e, he⟩ := Option.isSome_iff_exists.mp hsome
  have hfree := List.find?_some he
  exact ⟨e, he, Option.isNone_iff_eq_none.mp hfree⟩

theorem exec_intakeGrant {s : State} {t : TenantId} {c : CtxId} (ht : s.nextGranted = some t) (hc : s.freePool = some c) :
    exec .intakeGrant s = .next (s.grantContext t c) := by
  show Host.Outcome.next (intakeGrant s) = _
  simp only [intakeGrant, ht, hc]

/-- Settles O49: the arbiter's search finds the eligible tenant nearest after the last one granted. -/
theorem intakeGrantsInTurn : Obligations.IntakeGrantsInTurn := by
  intro s t d eligible ht hmin hd hfree
  have hnext : s.nextGranted = some t :=
    find_tenantsAfter ((eligible_iff _).mpr ht) fun n hn => hmin n ((eligible_iff _).mp hn)
  obtain ⟨c, hpool, hc⟩ := freePool_some hfree
  refine ⟨_, c, exec_intakeGrant hnext hpool, hc, ?_, fun e he => ?_, ?_, fun n hn => ?_, rfl, rfl,
    ⟨rfl, rfl, rfl, rfl, rfl, rfl⟩, ⟨rfl, rfl, rfl⟩, ⟨rfl, rfl, rfl⟩, rfl, rfl, ⟨rfl, rfl, rfl, rfl, rfl, rfl⟩,
    ⟨rfl, rfl, rfl⟩⟩
  · refine (State.context_setContext_same s c _).trans ?_
    simp only [Tenant.headAddr, hd]
  · exact (State.context_setContext s c e _).trans (if_neg he)
  · exact State.tenant_setTenant_same (s.setContext c _) t _
  · exact (State.tenant_setTenant (s.setContext c _) t n _).trans (if_neg hn)

section
variable {s : State} {t : TenantId} {c : CtxId} {x : Context}

theorem exec_headReadEnd_data {addr : BitVec 64} {notified : Bool} (bytes : List Byte)
    (hf : s.findContext t Stage.isHeadRead = some (c, x)) (hs : x.stage = .headRead addr notified .live) :
    exec (.headReadEnd t (some bytes)) s = .next (s.headData t c addr notified bytes) := by
  show Host.Outcome.next (headReadEnd t (some bytes) s) = _
  simp only [headReadEnd, hf, hs]

theorem exec_headReadEnd_error {addr : BitVec 64} {notified : Bool}
    (hf : s.findContext t Stage.isHeadRead = some (c, x)) (hs : x.stage = .headRead addr notified .live) :
    exec (.headReadEnd t none) s = .next ((s.breakTenant t).endIntake t c) := by
  show Host.Outcome.next (headReadEnd t none s) = _
  simp only [headReadEnd, hf, hs]

theorem exec_fillByteWriteEnd_done {addr : BitVec 64} {fate : Fate} (hf : s.findContext t Stage.isFillWrite = some (c, x))
    (hs : x.stage = .fillWrite addr fate) (hfate : fate ≠ .dropped) :
    exec (.fillByteWriteEnd t .done) s =
      .next ((s.setTenant t { s.tenant t with head := (s.tenant t).nextHead }).gate t c x) := by
  show Host.Outcome.next (fillByteWriteEnd t .done s) = _
  cases fate with
  | dropped => exact absurd rfl hfate
  | live => simp only [fillByteWriteEnd, hf, hs]
  | stale => simp only [fillByteWriteEnd, hf, hs]

theorem exec_fillByteWriteEnd_error {addr : BitVec 64} (hf : s.findContext t Stage.isFillWrite = some (c, x))
    (hs : x.stage = .fillWrite addr .live) :
    exec (.fillByteWriteEnd t .error) s = .next ((s.breakTenant t).endIntake t c) := by
  show Host.Outcome.next (fillByteWriteEnd t .error s) = _
  simp only [fillByteWriteEnd, hf, hs]

end

/-- Settles O50: the head read's context alone decides, by its fill byte and its mark. -/
theorem headReadsEnd : Obligations.HeadReadsEnd := by
  intro s t c x addr notified bytes hx ht hs huniq
  have hf : s.findContext t Stage.isHeadRead = some (c, x) := findContext_unique hx ht (by rw [hs]; rfl) huniq
  rw [exec_headReadEnd_data bytes hf hs]
  constructor
  · intro hfill
    rw [State.headData, if_neg hfill]
  · intro hempty
    rw [State.headData, if_pos hempty, State.emptyHead]
    cases notified with
    | true =>
      rw [if_pos rfl, endIntake_eq hx ht, Bool.true_and]
    | false =>
      simp only [Bool.false_eq_true, if_false]
      rw [endIntake_eq (s := s.setTenant t _) hx ht, State.tenant_setTenant_same]
      rw [setTenant_setContext, setTenant_setTenant, Bool.false_and]

theorem tagHeld_iff (s : State) (t : TenantId) (c : CtxId) (tag : BitVec 16) :
    s.tagHeld t c tag = true ↔ ∃ e y, e ≠ c ∧ s.context e = some y ∧ y.tenant = t ∧ y.tag = some tag := by
  unfold State.tagHeld
  rw [List.any_eq_true]
  constructor
  · rintro ⟨e, -, he⟩
    cases hy : s.context e with
    | none => rw [hy] at he; cases he
    | some y =>
      rw [hy] at he
      obtain ⟨hne, htenant, htag⟩ := of_decide_eq_true he
      exact ⟨e, y, hne, hy, htenant, htag⟩
  · rintro ⟨e, y, hne, hy, htenant, htag⟩
    refine ⟨e, List.mem_finRange e, ?_⟩
    rw [hy]
    exact decide_eq_true ⟨hne, htenant, htag⟩

theorem gateFault_status {s : State} {t : TenantId} {record : List Byte} {status : Status}
    (h : (Command.read record = none ∧ status = .badKind) ∨
      (∃ cmd, Command.read record = some cmd ∧ cmd.adminOnly = true ∧ t ≠ admin ∧ status = .notAdmin) ∨
      (∃ cmd, Command.read record = some cmd ∧ (cmd.adminOnly = true → t = admin) ∧ cmd.allowed s.service = false ∧
        status = .notServing)) : s.gateFault t record = some status := by
  unfold State.gateFault
  obtain ⟨hread, rfl⟩ | ⟨cmd, hread, honly, ht, rfl⟩ | ⟨cmd, hread, honly, hallowed, rfl⟩ := h
  · simp only [hread]
  · simp only [hread, if_pos (And.intro honly ht)]
  · have hgate : ¬(cmd.adminOnly = true ∧ t ≠ admin) := fun k => k.2 (honly k.1)
    simp only [hread, if_neg hgate, hallowed, if_true]

theorem gateFault_none {s : State} {t : TenantId} {record : List Byte} {cmd : Command} (hread : Command.read record = some cmd)
    (honly : cmd.adminOnly = true → t = admin) (hallowed : cmd.allowed s.service = true) : s.gateFault t record = none := by
  have hgate : ¬(cmd.adminOnly = true ∧ t ≠ admin) := fun k => k.2 (honly k.1)
  simp only [State.gateFault, hread, if_neg hgate, hallowed, Bool.true_eq_false, if_false]

section
variable {s : State} {t : TenantId} {c : CtxId} {x : Context}

theorem gate_of_held (h : s.tagHeld t c (recordTag x.record) = true) :
    s.gate t c x = (s.setContext c (some { x with tag := none, stage := .taken })).refuse c .tagInUse .none := by
  simp only [State.gate, if_pos h]

theorem gate_of_fault {status : Status} (h : s.tagHeld t c (recordTag x.record) = false)
    (hg : (s.setContext c (some { x with tag := some (recordTag x.record), stage := .taken })).gateFault t x.record =
      some status) :
    s.gate t c x =
      (s.setContext c (some { x with tag := some (recordTag x.record), stage := .taken })).refuse c status .none := by
  simp only [State.gate, h, Bool.false_eq_true, if_false, hg]

theorem gate_of_pass (h : s.tagHeld t c (recordTag x.record) = false)
    (hg : (s.setContext c (some { x with tag := some (recordTag x.record), stage := .taken })).gateFault t x.record = none) :
    s.gate t c x = s.setContext c (some { x with tag := some (recordTag x.record), stage := .taken }) := by
  simp only [State.gate, h, Bool.false_eq_true, if_false, hg]

end

theorem nextHead_eq {x : Tenant} {d : Descriptor} (hd : x.desc = some d) :
    x.nextHead = if x.head + 1 < d.subSize then x.head + 1 else 0 := by
  simp only [Tenant.nextHead, hd, nextIndex]

/-- Settles O51: the head advances first, and the gate's three outcomes are read on the state with the advanced head. -/
theorem fillByteWritesTakeTheCommand : Obligations.FillByteWritesTakeTheCommand := by
  intro s t c x addr fate d hx ht htag hs hfate huniq hd next advanced taken held
  have hf : s.findContext t Stage.isFillWrite = some (c, x) := findContext_unique hx ht (by rw [hs]; rfl) huniq
  have hexec := exec_fillByteWriteEnd_done hf hs hfate
  rw [nextHead_eq hd] at hexec
  have hadvanced : OnlyRings s advanced := onlyRings_setTenant s t _
  have hheld : advanced.tagHeld t c (recordTag x.record) = true ↔ held := tagHeld_iff advanced t c _
  have hears : (advanced.tenant t).hears = (s.tenant t).hears := by
    rw [State.tenant_setTenant_same]
    rfl
  refine ⟨fun hyes hh => ?_, fun hno status hh hstatus => ?_, fun hno cmd hread honly hallowed => ?_⟩
  · have hu := gate_of_held (hheld.mpr hyes)
    obtain ⟨hfin, hr⟩ := refuse_finishes_context (s := advanced.setContext c (some { x with tag := none, stage := .taken }))
      (State.context_setContext_same _ _ _) ht (hears.trans hh) .tagInUse
    rw [← hu] at hfin hr
    rw [← htag] at hfin
    exact ⟨_, hexec, hfin.of_setStage (x := x) hx, hadvanced.trans ((onlyRings_setContext _ _ _).trans hr)⟩
  · have hfree : advanced.tagHeld t c (recordTag x.record) = false := Bool.eq_false_iff.mpr fun k => hno (hheld.mp k)
    have hu := gate_of_fault hfree (gateFault_status (s := taken) hstatus)
    obtain ⟨hfin, hr⟩ := refuse_finishes_context (s := taken) (State.context_setContext_same _ _ _) ht (hears.trans hh) status
    rw [← hu] at hfin hr
    exact ⟨_, hexec, hfin, hadvanced.trans ((onlyRings_setContext _ _ _).trans hr)⟩
  · have hfree : advanced.tagHeld t c (recordTag x.record) = false := Bool.eq_false_iff.mpr fun k => hno (hheld.mp k)
    exact hexec.trans (congrArg Host.Outcome.next (gate_of_pass hfree (gateFault_none (s := taken) hread honly hallowed)))

/-! ### The writer (R172 to R174) -/

theorem tailAddr_eq {x : Tenant} {d : Descriptor} (hd : x.desc = some d) :
    x.tailAddr = d.compBase + BitVec.ofNat 64 (16 * x.tail) := by
  simp only [Tenant.tailAddr, hd]

/-- Settles O52. -/
theorem writerReadsTheTail : Obligations.WriterReadsTheTail := by
  intro s t d hd
  refine ⟨fun h => ?_, fun h => congrArg Host.Outcome.next (if_neg h), fun deadline hdeadline => ?_⟩
  · refine congrArg Host.Outcome.next ((if_pos h).trans ?_)
    rw [State.setWriter, tailAddr_eq hd]
  · have hrow : exec (.recheckDeadline t) s =
        .next (s.atDeadline deadline ((s.setTenant t { s.tenant t with recheck := none }).startRecheck t)) := by
      show Host.Outcome.next (recheckDeadline t s) = _
      simp only [recheckDeadline, hdeadline]
    rw [hrow]
    refine ⟨fun hlt => by rw [State.atDeadline_of_lt _ hlt], fun hle => ?_⟩
    rw [State.atDeadline_of_le _ hle, startRecheck_eq, setTenant_setTenant, State.tenant_setTenant_same]
    simp only [Tenant.tailAddr, hd]

theorem nextTail_eq {x : Tenant} {d : Descriptor} (hd : x.desc = some d) :
    x.nextTail = if x.tail + 1 < d.compSize then x.tail + 1 else 0 := by
  simp only [Tenant.nextTail, hd, nextIndex]

theorem recordOf_setTenant (s : State) (t : TenantId) (x : Tenant) (e : OutEntry) :
    (s.setTenant t x).recordOf e = s.recordOf e := by
  cases e with
  | completion c => rfl
  | marker subject reason => cases subject <;> rfl

/-- The state in which the entry at the head of the queue has been taken and its record is being written (R172). -/
def State.written (s : State) (t : TenantId) (addr : BitVec 64) (e : OutEntry) (rest : List OutEntry) : State :=
  s.setTenant t
    { s.tenant t with
      stalled := false, recheck := none, outbound := rest, writer := some (.recordWrite addr (s.recordOf e) e.ctx .live) }

theorem takeEntry_eq {s : State} {t : TenantId} {e : OutEntry} {rest : List OutEntry} (addr : BitVec 64)
    (h : (s.tenant t).outbound = e :: rest) : s.takeEntry t addr = ((s.written t addr e rest).begin.loosenFor e).settle := by
  unfold State.takeEntry
  simp only [State.tenant_setTenant_same, h, recordOf_setTenant, setTenant_setTenant]
  rfl

/-- The slot of an ENDED lease that no queue marks is freed (R18). -/
theorem freeEnded_of_unmarked {s : State} {h : Handle} {l : Lease} (hl : s.resolve h = some l) (hdead : l.live = false)
    (hm : s.marked h = false) : s.freeEnded h.slot = s.setSlot h.slot { gen := nextGen h.gen, lease := none } := by
  obtain ⟨hgen, hlease, hhandle⟩ := resolve_slot hl
  simp only [State.freeEnded, hlease, hhandle, hm, hdead, and_self, if_true, hgen]

theorem exec_tailEnd {s : State} {i : Instr} {t : TenantId} {addr : BitVec 64} {fill : Option Byte}
    (h : (i = .tailReadEnd t fill ∧ (s.tenant t).writer = some (.tailRead addr .live)) ∨
      (i = .recheckReadEnd t fill ∧ (s.tenant t).writer = some (.recheckRead addr .live))) :
    exec i s = .next (s.tailEnd t addr .live fill) := by
  obtain ⟨rfl, hw⟩ | ⟨rfl, hw⟩ := h
  · show Host.Outcome.next (tailReadEnd t fill s) = _
    simp only [tailReadEnd, hw]
  · show Host.Outcome.next (recheckReadEnd t fill s) = _
    simp only [recheckReadEnd, hw]

/-- Settles O53: both reads end alike, and of an entry taken a lease marker alone can free a slot. -/
theorem tailReadsEnd : Obligations.TailReadsEnd := by
  intro s i t b addr hi
  rw [exec_tailEnd hi]
  refine ⟨fun hb => congrArg Host.Outcome.next (if_neg hb), fun e rest hb hout => ?_⟩
  have htake : s.tailEnd t addr .live (some b) = ((s.written t addr e rest).begin.loosenFor e).settle :=
    (if_pos hb).trans (takeEntry_eq addr hout)
  intro written
  have hwritten : s.written t addr e rest = written := by
    cases e <;> rfl
  rw [htake, hwritten]
  constructor
  · rintro h l reason rfl hl hdead hm
    exact congrArg Host.Outcome.next (freeEnded_of_unmarked (s := written) hl hdead hm)
  · intro hlive
    refine congrArg Host.Outcome.next ?_
    cases e with
    | completion c => rfl
    | marker subject reason =>
      cases subject with
      | lease h =>
        obtain ⟨l, hl, hv⟩ := hlive h reason rfl
        exact freeEnded_of_live written h.slot l hl hv
      | rail r => rfl
      | budget => rfl

theorem exec_recordWriteEnd_done {s : State} {t : TenantId} {addr : BitVec 64} {record : List Byte} {ctx : Option CtxId}
    {fate : Fate} (hw : (s.tenant t).writer = some (.recordWrite addr record ctx fate)) (hfate : fate ≠ .dropped) :
    exec (.recordWriteEnd t .done) s = .next (s.recordDone t ctx) := by
  show Host.Outcome.next (recordWriteEnd t .done s) = _
  cases fate with
  | dropped => exact absurd rfl hfate
  | live => simp only [recordWriteEnd, hw]
  | stale => simp only [recordWriteEnd, hw]

theorem exec_recordWriteEnd_error {s : State} {t : TenantId} {addr : BitVec 64} {record : List Byte} {ctx : Option CtxId}
    (hw : (s.tenant t).writer = some (.recordWrite addr record ctx .live)) :
    exec (.recordWriteEnd t .error) s = .next (((s.breakTenant t).setWriter t none).freeWritten ctx) := by
  show Host.Outcome.next (recordWriteEnd t .error s) = _
  simp only [recordWriteEnd, hw]

/-- Settles O54: the tenant is written once, and a completion's context is freed on top. -/
theorem recordWritesEnd : Obligations.RecordWritesEnd := by
  intro s t addr record ctx fate d hw hfate hd after
  have hafter : ({ s.tenant t with
      tail := (s.tenant t).nextTail, intPending := (s.tenant t).intPending || (s.tenant t).interrupts, writer := none } :
      Tenant) = after := by
    simp only [after, nextTail_eq hd, Tenant.interrupts, hd]
  have hdone : s.recordDone t ctx = (s.setTenant t after).freeWritten ctx := by
    rw [State.recordDone, ← hafter]
  rw [exec_recordWriteEnd_done hw hfate, hdone]
  constructor
  · rintro rfl
    rfl
  · rintro c x rfl hx ht
    rw [State.freeWritten, freeContext_eq (s := s.setTenant t after) hx, ht, State.tenant_setTenant_same, setTenant_setContext,
      setTenant_setTenant]

/-! ### Report writes (R168) -/

/-- Settles O55. -/
theorem reportWritesEnd : Obligations.ReportWritesEnd := by
  intro s t c x addr report result hx ht hs hh huniq
  have hf : s.findContext t Stage.isReporting = some (c, x) := findContext_unique hx ht (by rw [hs]; rfl) huniq
  have hexec : exec (.reportWriteEnd t result) s = .next (s.refuse c (reportStatus result) .none) := by
    show Host.Outcome.next (reportWriteEnd t result s) = _
    simp only [reportWriteEnd, hf, hs]
  have hstatus : reportStatus result = if result = .done then .ok else .busError := by
    cases result <;> rfl
  obtain ⟨hfin, hr⟩ := refuse_finishes_context hx ht hh (reportStatus result)
  rw [hstatus] at hfin hr hexec
  exact ⟨_, hexec, hr.keepsLeases, hr.keepsBudget, hr.keepsQueue, hr.keepsRails, hr.keepsTiers, hr.keepsOwners, hr.keepsService,
    hr.keepsClock, hfin⟩

/-! ### Ring errors (R162) -/

theorem breakTenant_tenant (s : State) (t n : TenantId) :
    (s.breakTenant t).tenant n =
      if n = t then
        { s.tenant t with
          state := .broken, stalled := false, recheck := none, writer := (s.tenant t).writer.map WriterAccess.outdated }
      else s.tenant n :=
  State.tenant_setTenant s t n _

theorem breakTenant_context (s : State) (t : TenantId) (c : CtxId) :
    (s.breakTenant t).context c = (s.mapStages t Stage.outdated).context c := rfl

theorem breakTenant_context_some {s : State} {t : TenantId} {c : CtxId} {x : Context} (hx : s.context c = some x)
    (ht : x.tenant = t) : (s.breakTenant t).context c = some { x with stage := x.stage.outdated } := by
  rw [breakTenant_context, mapStages_context, hx, Option.map_some, if_pos ht]

/-- Settles O56: each row is a break of the tenant, followed by a free of the context that the access belonged to. -/
theorem ringErrorBreaksTheTenant : Obligations.RingErrorBreaksTheTenant := by
  intro s t addr
  refine ⟨fun i c x hx ht hi => ?_, fun i hi => ?_, fun record c x hx ht hw => ?_⟩
  · have hexec : exec i s = .next ((s.breakTenant t).endIntake t c) := by
      obtain ⟨rfl, ⟨notified, hs⟩, huniq⟩ | ⟨rfl, hs, huniq⟩ := hi
      · exact exec_headReadEnd_error (findContext_unique hx ht (by rw [hs]; rfl) huniq) hs
      · exact exec_fillByteWriteEnd_error (findContext_unique hx ht (by rw [hs]; rfl) huniq) hs
    have heq := endIntake_eq (breakTenant_context_some hx ht) ht
    have hr : OnlyRings s ((s.breakTenant t).endIntake t c) := (onlyRings_breakTenant s t).trans (onlyRings_endIntake _ _ _)
    refine ⟨_, hexec, hr, ?_, fun e he => ?_, fun n hn => ?_, ?_⟩
    · rw [heq]
      exact State.context_setContext_same _ c none
    · rw [heq]
      exact (State.context_setContext (s.breakTenant t) c e none).trans (if_neg he)
    · rw [heq, State.tenant_setTenant, if_neg hn]
      exact (breakTenant_tenant s t n).trans (if_neg hn)
    · rw [heq, State.tenant_setTenant_same, breakTenant_tenant, if_pos rfl]
  · have hexec : exec i s = .next ((s.breakTenant t).setWriter t none) := by
      obtain ⟨rfl, hw⟩ | ⟨rfl, hw⟩ | ⟨rfl, record, hw⟩ := hi
      · exact exec_tailEnd (Or.inl ⟨rfl, hw⟩)
      · exact exec_tailEnd (Or.inr ⟨rfl, hw⟩)
      · exact exec_recordWriteEnd_error hw
    refine ⟨_, hexec, rfl, fun n hn => ?_, ?_⟩
    · rw [State.setWriter, State.tenant_setTenant, if_neg hn, breakTenant_tenant, if_neg hn]
    · rw [State.setWriter, State.tenant_setTenant_same, breakTenant_tenant, if_pos rfl]
  · have hfree := freeContext_eq (s := (s.breakTenant t).setWriter t none) (breakTenant_context_some hx ht)
    simp only [ht, State.setWriter, State.tenant_setTenant_same, setTenant_setContext, setTenant_setTenant] at hfree
    have hr : OnlyRings s (((s.breakTenant t).setWriter t none).freeContext c) :=
      (onlyRings_breakTenant s t).trans ((onlyRings_setWriter _ _ _).trans (onlyRings_freeContext _ _))
    refine ⟨_, exec_recordWriteEnd_error hw, hr, ?_, fun e he => ?_, fun n hn => ?_, ?_⟩
    · exact (congrArg (State.context · c) hfree).trans (State.context_setContext_same _ c none)
    · exact (congrArg (State.context · e) hfree).trans ((State.context_setContext (s.breakTenant t) c e none).trans (if_neg he))
    · refine (congrArg (State.tenant · n) hfree).trans ?_
      rw [State.tenant_setTenant, if_neg hn]
      exact (breakTenant_tenant s t n).trans (if_neg hn)
    · refine (congrArg (State.tenant · t) hfree).trans ?_
      rw [State.tenant_setTenant_same, breakTenant_tenant, if_pos rfl]

/-! ### Queries and OPEN_TENANT (R25, R73, R118, R157, R168, R176) -/

theorem numbered_val {n : Nat} (i : Fin n) : numbered n i.val = some i := dif_pos i.isLt

theorem beginReport_eq {s : State} {c : CtxId} {x : Context} {buffer : Nat} (hx : s.context c = some x) (hb : buffer % 64 = 0)
    (report : List Byte) :
    s.beginReport c buffer report =
      s.setContext c (some { x with stage := .reporting (BitVec.ofNat 64 buffer) report .live }) := by
  rw [State.beginReport, if_pos hb, setStage_eq hx]

/-- Settles O27: with its checks passed each row is one write of its own context's stage. -/
theorem queriesAndOpenTenantBeginTheirAccess : Obligations.QueriesAndOpenTenantBeginTheirAccess := by
  intro s t c x w buffer hx hb
  have hself : ∀ n : TenantId, (n = t ∨ t = admin) → ¬(t ≠ admin ∧ n ≠ t) := fun n h k => h.elim k.2 k.1
  refine ⟨fun n H hs hn hclosed => ?_, fun l H hl ht => ?_, fun r pgHigh H => ?_, fun n H ht => ?_, fun n H ht => ?_⟩
  · have hopen : s.openable = true := by
      unfold State.openable
      split
      · next hidle => exact absurd hidle hs
      · rfl
    show Host.Outcome.next (openTenant s) = _
    simp only [openTenant, H.1, State.openTenantBody, hopen, Bool.true_eq_false, if_false, numbered_val, if_neg hn, hclosed,
      ne_eq, not_true_eq_false, setStage_eq hx]
    rfl
  · have howner : ¬(l.tenant ≠ t ∧ t ≠ admin) := fun k => ht.elim k.1 k.2
    show Host.Outcome.next (queryLease t s) = _
    simp only [queryLease, H.1, State.queryLeaseBody, hl, if_neg howner, beginReport_eq hx hb]
  · show Host.Outcome.next (queryRail t pgHigh s) = _
    simp only [queryRail, H.1, State.queryRailBody, numbered_val, beginReport_eq hx hb]
  · show Host.Outcome.next (queryBudget t s) = _
    simp only [queryBudget, H.1, State.queryBudgetBody, numbered_val, if_neg (hself n ht), beginReport_eq hx hb]
  · show Host.Outcome.next (queryTenant t s) = _
    simp only [queryTenant, H.1, State.queryTenantBody, numbered_val, if_neg (hself n ht), beginReport_eq hx hb]

end Sys2Proof.Machine

/-! PROOFS. The configuration commands (R31, R70 to R72, R90, R94, R134) and the ownership unit (R139 to R148). -/

namespace Sys2Proof.Machine

/-! ### Where configuration is allowed -/

theorem configurable_of_service {s : State} (h : s.service = .configuring ∨ s.service = .serving) : s.configurable = true := by
  unfold State.configurable
  obtain h | h := h <;> rw [h]

/-- A command that writes a part of the state outside the rings, adds markers and finishes OK, with no scan and nothing to free. -/
theorem finishes_of_begin {s v : State} {t : TenantId} {c : CtxId} {cmd : Command} (H : s.Holds t c cmd) (e : SameRings s v)
    (marks : List (TenantId × Subject × Reason)) :
    Finishes s (({ v.begin with marks := marks } : Happening).reply c .ok).settle t c .ok .none none 0 marks ∧
      OnlyRings v (({ v.begin with marks := marks } : Happening).reply c .ok).settle :=
  answered s { v.begin with marks := marks } t c cmd H e rfl rfl (fun h => nomatch h) (fun h => nomatch h) .ok .none none 0

/-! ### SET_TIERS and SET_RAIL (R31, R94, R95) -/

/-- What an accepted entry of a SET_TIERS says of its tier (R31 check 5). -/
theorem judge_eq_some {e : TierEntry} {x : Tier} {cfg : RailConfig} (hkind : tierKindOf e.kind = some x.kind)
    (hvmin : x.vmin = e.vmin) (hvmax : x.vmax = e.vmax) (himax : x.imax = e.imax)
    (hcap : x.cap = if x.kind = .capped then e.cap else 0) (hgrid : e.vmin % 10 = 0 ∧ e.vmax % 10 = 0)
    (hrange : e.vmin ≤ e.vmax ∧ (x.kind = .fixed → e.vmin = e.vmax))
    (hlimits : cfg.floor ≤ e.vmin ∧ e.vmax ≤ cfg.ceiling ∧ e.imax ≤ cfg.currentCeiling) (hpos : 1 ≤ e.imax)
    (hcapped : x.kind = .capped → 1 ≤ e.cap ∧ e.cap ≤ 1920000) : e.judge cfg = some x := by
  obtain ⟨kind, vmin, vmax, imax, cap⟩ := x
  have hcap' : cap = if kind = .capped then e.cap else 0 := hcap
  subst hvmin hvmax himax hcap'
  have hwithin : ∀ cap', Tier.within { kind := kind, vmin := e.vmin, vmax := e.vmax, imax := e.imax, cap := cap' } cfg.floor
      cfg.ceiling cfg.currentCeiling = true := fun _ => decide_eq_true hlimits
  simp only [TierEntry.judge, hkind]
  exact if_pos ⟨hgrid.1, hgrid.2, hrange.1, hrange.2, hwithin _, hpos, hcapped⟩

theorem findIdx?_isNone_map_some {α : Type} (xs : List α) : (xs.map some).findIdx? Option.isNone = none := by
  simp

theorem filterMap_id_map_some {α : Type} (xs : List α) : (xs.map some).filterMap id = xs := by
  simp

/-- Settles O28: entries judged good one by one are the list that is written. -/
theorem setTiersReplacesTheList : Obligations.SetTiersReplacesTheList := by
  intro s c r entries tiers H hservice hfree hmin hmax htiers
  have hjudged : entries.map (fun e => e.judge (s.config r)) = tiers.map some := by
    clear H hmin hmax
    induction htiers with
    | nil => rfl
    | cons h _ ih =>
      obtain ⟨hkind, hvmin, hvmax, himax, hcap, hg1, hg2, hle, hfixed, hfloor, hceil, hpos, hcur, hcapped⟩ := h
      rw [List.map_cons, List.map_cons, ih,
        judge_eq_some hkind hvmin hvmax himax hcap ⟨hg1, hg2⟩ ⟨hle, hfixed⟩ ⟨hfloor, hceil, hcur⟩ hpos hcapped]
  have hexec : exec .setTiers s = .next (((s.setTierList r tiers).begin.reply c .ok).settle) := by
    have hcount : ¬(entries.length < 1 ∨ 6 < entries.length) := by omega
    show Host.Outcome.next (setTiers s) = _
    simp only [setTiers, H.1, State.setTiersBody, configurable_of_service hservice, Bool.true_eq_false, if_false, numbered_val,
      hfree, Option.isSome_none, Bool.false_eq_true, if_neg hcount, hjudged, findIdx?_isNone_map_some, filterMap_id_map_some]
    rfl
  obtain ⟨hfin, hr⟩ := finishes_of_begin (v := s.setTierList r tiers) H ⟨rfl, rfl, rfl⟩ []
  refine ⟨_, hexec, (hr.tierList r).trans (State.tierList_setTierList_same s r tiers), fun q hq => ?_, hr.keepsLeases,
    hr.keepsBudget, hr.keepsQueue, hr.keepsRails, hr.keepsOwners, hr.keepsService, hr.keepsClock, hfin⟩
  exact (hr.tierList q).trans ((State.tierList_setTierList s r q tiers).trans (if_neg hq))

/-- Settles O29: both kinds of accepted SET_RAIL are one write of the rail's configuration. -/
theorem setRailWritesTheRecord : Obligations.SetRailWritesTheRecord := by
  intro s c r cfg H hservice hfree hfalling hvalid
  have hexec : exec .setRail s =
      .next (((s.setConfig r (if cfg.configured then cfg else { s.config r with configured := false })).begin.reply c .ok).settle) := by
    show Host.Outcome.next (setRail s) = _
    simp only [setRail, H.1, State.setRailBody, configurable_of_service hservice, Bool.true_eq_false, if_false, numbered_val,
      hfree, Option.isSome_none, Bool.false_eq_true, hfalling]
    cases hconf : cfg.configured with
    | false => rfl
    | true =>
      obtain ⟨hrange, htiers⟩ := hvalid hconf
      simp only [Bool.true_eq_false, if_false, hrange, htiers, if_true]
      rfl
  obtain ⟨hfin, hr⟩ := finishes_of_begin
    (v := s.setConfig r (if cfg.configured then cfg else { s.config r with configured := false })) H ⟨rfl, rfl, rfl⟩ []
  refine ⟨_, hexec, (hr.config r).trans (State.config_setConfig_same s r _), fun q hq => ?_, hr.rails, hr.faults, hr.keepsLeases,
    hr.keepsBudget, hr.keepsQueue, hr.keepsTiers, hr.keepsOwners, hr.keepsService, hr.keepsClock, hfin⟩
  exact (hr.config q).trans ((State.config_setConfig s r q _).trans (if_neg hq))

/-! ### SET_FEED, SET_MARGIN, SET_QUOTA, SET_QUEUE_POLICY (R70 to R72, R90) -/

/-- A change of feeds or margin by a command, with no entry to scan: it finishes OK, with the markers of the change (R70, R71). -/
theorem budgetMoved_finishes {s v : State} {c : CtxId} {cmd : Command} (H : s.Holds admin c cmd) (e : SameRings s v)
    (hq : v.queue = []) :
    ∃ u, ((v.begin.budgetMoved s.available .reconfigured).reply c .ok).settle = u ∧ OnlyRings v u ∧
      Finishes s u admin c .ok .none none 0 (movedMarks s u .reconfigured) := by
  obtain ⟨hst, hanswers, hloose, hcheck, -, hmarks⟩ := budgetMoved_begin v s.available .reconfigured
  obtain ⟨hfin, hr⟩ := answered s (v.begin.budgetMoved s.available .reconfigured) admin c cmd H (by rw [hst]; exact e) hanswers
    hloose (fun _ => by rw [hst]; exact hq) (fun h => by rw [hcheck] at h; cases h) .ok .none none 0
  rw [hst] at hr
  refine ⟨_, rfl, hr, ?_⟩
  have hmoved : (v.begin.budgetMoved s.available .reconfigured).marks =
      movedMarks s ((v.begin.budgetMoved s.available .reconfigured).answer c .ok .none none 0).settle .reconfigured := by
    rw [hmarks, movedMarks, hr.available]
  rw [hmoved] at hfin
  exact hfin

/-- Settles O30. -/
theorem setFeedAndSetMarginConfigureTheBudget : Obligations.SetFeedAndSetMarginConfigureTheBudget := by
  intro s c hservice hq
  refine ⟨fun f capacity qualify H hcap hq1 hq2 hcover => ?_, fun margin H hmax hcover => ?_⟩
  · have hexec : exec .setFeed s =
        .next ((((s.setFeedRecord f { s.feed f with capacity := capacity, qualify := qualify }).begin.budgetMoved s.available
          .reconfigured).reply c .ok).settle) := by
      have hc : ¬4000000 < capacity := by omega
      have hqual : ¬(qualify < 10 ∨ 5000 < qualify) := by omega
      have huse : ¬((s.feed f).state = .present ∧ capacity < (s.feed f).capacity ∧
          (s.setFeedRecord f { s.feed f with capacity := capacity, qualify := qualify }).available < s.chargedTotal) :=
        fun ⟨hp, hlow, hover⟩ => absurd (hcover hp hlow) (by omega)
      show Host.Outcome.next (setFeed s) = _
      simp only [setFeed, H.1, State.setFeedBody, configurable_of_service hservice, Bool.true_eq_false, if_false, numbered_val,
        if_neg hc, if_neg hqual, if_neg huse]
    obtain ⟨u, hu, hr, hfin⟩ := budgetMoved_finishes
      (v := s.setFeedRecord f { s.feed f with capacity := capacity, qualify := qualify }) H ⟨rfl, rfl, rfl⟩ hq
    rw [hu] at hexec
    refine ⟨u, hexec, (hr.feed f).trans (State.feed_setFeedRecord_same s f _), fun g hg => ?_, hr.margin, hr.accounts,
      hr.chargedTotal, hr.committedTotal, hr.grantOrder, hr.keepsLeases, hr.keepsQueue, hr.keepsRails, hr.keepsTiers,
      hr.keepsOwners, hr.keepsService, hr.keepsClock, hfin⟩
    exact (hr.feed g).trans ((State.feed_setFeedRecord s f g _).trans (if_neg hg))
  · have hexec : exec .setMargin s =
        .next (((({ s with margin := margin } : State).begin.budgetMoved s.available .reconfigured).reply c .ok).settle) := by
      have hm : ¬1000000 < margin := by omega
      have huse : ¬(s.margin < margin ∧ ({ s with margin := margin } : State).available < s.chargedTotal) :=
        fun ⟨hraise, hover⟩ => absurd (hcover hraise) (Nat.not_le.mpr hover)
      show Host.Outcome.next (setMargin s) = _
      simp only [setMargin, H.1, State.setMarginBody, configurable_of_service hservice, Bool.true_eq_false, if_false, if_neg hm,
        if_neg huse]
    obtain ⟨u, hu, hr, hfin⟩ := budgetMoved_finishes (v := ({ s with margin := margin } : State)) H ⟨rfl, rfl, rfl⟩ hq
    rw [hu] at hexec
    exact ⟨u, hexec, hr.margin, hr.available, hr.feeds, hr.accounts, hr.chargedTotal, hr.committedTotal, hr.grantOrder,
      hr.keepsLeases, hr.keepsQueue, hr.keepsRails, hr.keepsTiers, hr.keepsOwners, hr.keepsService, hr.keepsClock, hfin⟩

/-- Settles O31: a raised quota asks for a scan, which finds an empty queue; the queue's policy asks for none. -/
theorem setQuotaAndSetQueuePolicyWriteTheirValues : Obligations.SetQuotaAndSetQueuePolicyWriteTheirValues := by
  intro s c hservice
  refine ⟨fun t maxClass quota H hquota hclass hcharged hq => ?_, fun passLimit defaultWait H hpass hmin hmax => ?_⟩
  · let v := s.setAccount t { s.account t with quota := quota, maxClass := maxClass }
    let h : Happening := if (s.account t).quota < quota then v.begin.risen else v.begin
    have hexec : exec .setQuota s = .next ((h.reply c .ok).settle) := by
      have h1 : ¬12000000 < quota := by omega
      have h2 : ¬3 < maxClass := by omega
      have h3 : ¬quota < (s.account t).charged := by omega
      show Host.Outcome.next (setQuota s) = _
      simp only [setQuota, H.1, State.setQuotaBody, configurable_of_service hservice, Bool.true_eq_false, if_false, numbered_val,
        if_neg h1, if_neg h2, if_neg h3]
      rfl
    have hparts : h.st = v ∧ h.answers = [] ∧ h.loose = [] ∧ h.check = false ∧ h.marks = [] := by
      unfold h
      split <;> exact ⟨rfl, rfl, rfl, rfl, rfl⟩
    obtain ⟨hst, hanswers, hloose, hcheck, hmarks⟩ := hparts
    obtain ⟨hfin, hr⟩ := answered s h admin c _ H (by rw [hst]; exact ⟨rfl, rfl, rfl⟩) hanswers hloose
      (fun _ => by rw [hst]; exact hq) (fun k => by rw [hcheck] at k; cases k) .ok .none none 0
    rw [hst] at hr
    rw [hmarks] at hfin
    refine ⟨_, hexec, (hr.account t).trans (State.account_setAccount_same s t _), fun n hn => ?_, hr.feeds, hr.margin,
      hr.chargedTotal, hr.committedTotal, hr.grantOrder, hr.keepsLeases, hr.keepsQueue, hr.keepsRails, hr.keepsTiers,
      hr.keepsOwners, hr.keepsService, hr.keepsClock, hfin⟩
    exact (hr.account n).trans ((State.account_setAccount s t n _).trans (if_neg hn))
  · have hexec : exec .setQueuePolicy s =
        .next ((({ s with passLimit := passLimit, defaultWait := defaultWait } : State).begin.reply c .ok).settle) := by
      have h1 : ¬15 < passLimit := by omega
      have h2 : ¬(defaultWait < 1 ∨ 600 < defaultWait) := by omega
      show Host.Outcome.next (setQueuePolicy s) = _
      simp only [setQueuePolicy, H.1, State.setQueuePolicyBody, if_neg h1, if_neg h2]
      split
      · rfl
      · rfl
      · next hconfiguring hserving => exact absurd hservice (not_or.mpr ⟨hconfiguring, hserving⟩)
    obtain ⟨hfin, hr⟩ := finishes_of_begin (v := { s with passLimit := passLimit, defaultWait := defaultWait }) H
      ⟨rfl, rfl, rfl⟩ []
    exact ⟨_, hexec, hr.passLimit, hr.defaultWait, hr.queue, hr.keepsLeases, hr.keepsBudget, hr.keepsRails, hr.keepsTiers,
      hr.keepsOwners, hr.keepsService, hr.keepsClock, hfin⟩

/-! ### CLEAR_LOCKOUT (R134) -/

theorem markOwner_eq (h : Happening) (r : RailId) (reason : Reason) :
    h.markOwner r reason = { h with marks := h.marks ++ ownerMarks (h.st.owned r).owner r reason } := by
  unfold Happening.markOwner ownerMarks
  cases (h.st.owned r).owner with
  | none => simp only [List.append_nil]
  | some t => rfl

/-- Settles O32. -/
theorem clearLockoutUnlocks : Obligations.ClearLockoutUnlocks := by
  intro s c r H hservice hlocked hfree
  let v := (s.enterDown r false).setFaultRecord r { s.faultRecord r with count := 0 }
  have hexec : exec .clearLockout s =
      .next (({ v.begin with marks := ownerMarks (s.owned r).owner r .unlocked } : Happening).reply c .ok).settle := by
    show Host.Outcome.next (clearLockout s) = _
    simp only [clearLockout, H.1, State.clearLockoutBody, configurable_of_service hservice, Bool.true_eq_false, if_false,
      numbered_val, hlocked, ne_eq, not_true_eq_false, hfree, Option.isSome_none, Bool.false_eq_true, markOwner_eq]
    rfl
  obtain ⟨hfin, hr⟩ := finishes_of_begin (v := v) H ⟨rfl, rfl, rfl⟩ (ownerMarks (s.owned r).owner r .unlocked)
  refine ⟨_, hexec, ?_, (hr.faultRecord r).trans (State.faultRecord_setFaultRecord_same _ r _), ⟨hr.railConfig, fun q hq => ⟨?_, ?_⟩⟩,
    hr.keepsLeases, hr.keepsBudget, hr.keepsQueue, hr.keepsTiers, hr.keepsOwners, hr.keepsService, hr.keepsClock, hfin⟩
  · refine (hr.rail r).trans ((State.rail_setRail_same s r _).trans ?_)
    simp only [hfree, Bool.false_eq_true, if_false]
  · exact (hr.rail q).trans ((State.rail_setRail s r q _).trans (if_neg hq))
  · exact (hr.faultRecord q).trans ((State.faultRecord_setFaultRecord _ r q _).trans (if_neg hq))

/-! ### ASSIGN_RAIL (R139) -/

theorem markTenant?_eq (h : Happening) (t : Option TenantId) (r : RailId) (reason : Reason) :
    h.markTenant? t r reason = { h with marks := h.marks ++ ownerMarks t r reason } := by
  cases t with
  | none => simp only [Happening.markTenant?, ownerMarks, List.append_nil]
  | some t => rfl

/-- The markers for the two tenants of an offer that is withdrawn (R139). -/
def withdrawnMarks (offer : Option Offer) (r : RailId) : List (TenantId × Subject × Reason) :=
  match offer with
  | some o => [(o.offerer, .rail r, .offerWithdrawn), (o.target, .rail r, .offerWithdrawn)]
  | none => []

theorem cancelOffer_begin (s : State) (r : RailId) :
    s.begin.cancelOffer r = { (s.dropOffer r).begin with marks := withdrawnMarks (s.owned r).offer r } := by
  unfold Happening.cancelOffer withdrawnMarks
  rw [begin_st]
  cases ho : (s.owned r).offer with
  | some o => rfl
  | none =>
    have hrecord : ({ s.owned r with offer := none } : Ownership) = s.owned r := by rw [← ho]
    have hsame : s.dropOffer r = s := by
      rw [State.dropOffer, hrecord, State.setOwned, State.owned, vset_vget]
    rw [hsame]
    rfl

theorem assign_eq (h : Happening) (r : RailId) (owner : Option TenantId) :
    h.assign r owner =
      { h with
        st := h.st.setOwner r owner
        marks := h.marks ++ ownerMarks (h.st.owned r).owner r .assigned ++
          (if (h.st.owned r).owner = owner then [] else ownerMarks owner r .assigned) } := by
  unfold Happening.assign
  simp only [markTenant?_eq]
  split
  · rw [List.append_nil]
    rfl
  · rfl

theorem ownerOf_eq {b : Nat} {new : Option TenantId} (h : (b = 255 ∧ new = none) ∨ ∃ n : TenantId, b = n.val ∧ new = some n) :
    ownerOf b = some new := by
  obtain ⟨rfl, rfl⟩ | ⟨n, rfl, rfl⟩ := h
  · rfl
  · have hn : ¬n.val = 0xFF := by omega
    rw [ownerOf, if_neg hn, numbered_val]
    rfl

/-- Settles O33: the removal of the offer and the new owner are one write of the ownership record. -/
theorem assignRailSetsTheOwner : Obligations.AssignRailSetsTheOwner := by
  intro s c r b new H hservice hb hfree
  let v := (s.dropOffer r).setOwner r new
  have howner : ((s.dropOffer r).owned r).owner = (s.owned r).owner := by
    rw [State.dropOffer, State.owned_setOwned_same]
  let marks := withdrawnMarks (s.owned r).offer r ++ ownerMarks (s.owned r).owner r .assigned ++
    (if (s.owned r).owner = new then [] else ownerMarks new r .assigned)
  have hexec : exec .assignRail s = .next (({ v.begin with marks := marks } : Happening).reply c .ok).settle := by
    show Host.Outcome.next (assignRail s) = _
    simp only [assignRail, H.1, State.assignRailBody, configurable_of_service hservice, Bool.true_eq_false, if_false,
      numbered_val, ownerOf_eq hb, hfree, Option.isSome_none, Bool.false_eq_true, cancelOffer_begin, assign_eq, begin_st, howner]
    rfl
  obtain ⟨hfin, hr⟩ := finishes_of_begin (v := v) H ⟨rfl, rfl, rfl⟩ marks
  refine ⟨_, hexec, ?_, fun q hq => ?_, hr.keepsLeases, hr.keepsBudget, hr.keepsQueue, hr.keepsRails, hr.keepsTiers,
    hr.keepsService, hr.keepsClock, hfin⟩
  · refine (hr.owned r).trans ((State.owned_setOwned_same _ r _).trans ?_)
    rw [State.dropOffer, State.owned_setOwned_same]
  · refine (hr.owned q).trans ((State.owned_setOwned _ r q _).trans ((if_neg hq).trans ?_))
    exact (State.owned_setOwned s r q _).trans (if_neg hq)

/-! ### OFFER_RAIL, WITHDRAW_OFFER and expiry (R142, R143, R148) -/

theorem judgeOffer_eq {s : State} {t n : TenantId} {r : RailId} {lifetime : Nat} (howner : (s.owned r).owner = some t)
    (hn : n ≠ t) (hlife : 1 ≤ lifetime ∧ lifetime ≤ 60) (hoffer : (s.owned r).offer = none) (hbundle : s.inBundle r = false)
    (hopen : (s.tenant n).state = .isOpen) : s.judgeOffer t r n.val lifetime = .ok n := by
  have hlife' : ¬(lifetime < 1 ∨ 60 < lifetime) := by omega
  simp only [State.judgeOffer, howner, ne_eq, not_true_eq_false, if_false, numbered_val, if_neg hn, if_neg hlife', hoffer,
    Option.isSome_none, Bool.false_eq_true, hbundle, hopen]

/-- Settles O34. -/
theorem offerRailAndWithdrawOfferRecordTheOffer : Obligations.OfferRailAndWithdrawOfferRecordTheOffer := by
  intro s t c r hservice
  refine ⟨fun n lifetime H howner hn hmin hmax hoffer hbundle hopen => ?_, fun o H hoffer ho => ?_⟩
  · let v := s.putOffer r { offerer := t, target := n, deadline := s.now + 1000 * lifetime }
    have hexec : exec (.offerRail t) s =
        .next (({ v.begin with marks := [(n, .rail r, .offered)] } : Happening).reply c .ok).settle := by
      show Host.Outcome.next (offerRail t s) = _
      simp only [offerRail, H.1, State.offerRailBody, configurable_of_service hservice, Bool.true_eq_false, if_false,
        numbered_val, judgeOffer_eq howner hn ⟨hmin, hmax⟩ hoffer hbundle hopen]
      rfl
    obtain ⟨hfin, hr⟩ := finishes_of_begin (v := v) H ⟨rfl, rfl, rfl⟩ [(n, .rail r, .offered)]
    refine ⟨_, hexec, ?_, fun q hq => ?_, hr.keepsLeases, hr.keepsBudget, hr.keepsQueue, hr.keepsRails, hr.keepsTiers,
      hr.keepsService, hr.keepsClock, hfin⟩
    · refine (hr.owned r).trans ((State.owned_setOwned_same _ r _).trans ?_)
      simp only [howner]
    · exact (hr.owned q).trans ((State.owned_setOwned s r q _).trans (if_neg hq))
  · have hexec : exec (.withdrawOffer t) s =
        .next (({ (s.dropOffer r).begin with marks := [(o.target, .rail r, .offerWithdrawn)] } : Happening).reply c .ok).settle := by
      show Host.Outcome.next (withdrawOffer t s) = _
      simp only [withdrawOffer, H.1, State.withdrawOfferBody, configurable_of_service hservice, Bool.true_eq_false, if_false,
        numbered_val, hoffer, if_pos ho]
      rfl
    obtain ⟨hfin, hr⟩ := finishes_of_begin (v := s.dropOffer r) H ⟨rfl, rfl, rfl⟩ [(o.target, .rail r, .offerWithdrawn)]
    exact ⟨_, hexec, (hr.owned r).trans (State.owned_setOwned_same _ r _), fun q hq =>
      (hr.owned q).trans ((State.owned_setOwned s r q _).trans (if_neg hq)), hr.keepsLeases, hr.keepsBudget, hr.keepsQueue,
      hr.keepsRails, hr.keepsTiers, hr.keepsService, hr.keepsClock, hfin⟩

/-- Settles O37. -/
theorem offerExpiryRemovesTheOffer : Obligations.OfferExpiryRemovesTheOffer := by
  intro s r o hoffer
  let marks : List (TenantId × Subject × Reason) := [(o.offerer, .rail r, .offerExpired), (o.target, .rail r, .offerExpired)]
  have hrow : exec (.offerExpiry r) s =
      .next (s.atDeadline o.deadline ({ (s.dropOffer r).begin with marks := marks } : Happening).settle) := by
    show Host.Outcome.next (offerExpiry r s) = _
    simp only [offerExpiry, hoffer]
    rfl
  refine ⟨fun hlt => by rw [hrow, State.atDeadline_of_lt _ hlt], fun hle => ?_⟩
  rw [State.atDeadline_of_le _ hle] at hrow
  obtain ⟨hposts, hr⟩ := posted s { (s.dropOffer r).begin with marks := marks } ⟨rfl, rfl, rfl⟩ rfl rfl (fun h => nomatch h)
    (fun h => nomatch h)
  exact ⟨_, hrow, (hr.owned r).trans (State.owned_setOwned_same _ r _), fun q hq =>
    (hr.owned q).trans ((State.owned_setOwned s r q _).trans (if_neg hq)), hr.keepsLeases, hr.keepsBudget, hr.keepsQueue,
    hr.keepsRails, hr.keepsTiers, hr.keepsService, hr.keepsClock, hposts⟩

/-! ### ACCEPT_RAIL (R144 to R146) -/

theorem offerTo_eq {s : State} {t : TenantId} {r : RailId} {o : Offer} (hoffer : (s.owned r).offer = some o) (ht : o.target = t) :
    s.offerTo t r = some o := by
  rw [State.offerTo, hoffer]
  exact Option.filter_some_pos (decide_eq_true ht)

theorem owned_moveRail_same (s : State) (r : RailId) (t : TenantId) :
    (s.moveRail r t).owned r = { owner := some t, offer := none } := by
  rw [State.moveRail, State.setOwner, State.owned_setOwned_same, State.dropOffer, State.owned_setOwned_same]

theorem owned_moveRail_other (s : State) {r q : RailId} (t : TenantId) (hq : q ≠ r) : (s.moveRail r t).owned q = s.owned q := by
  rw [State.moveRail, State.setOwner, State.owned_setOwned, if_neg hq, State.dropOffer, State.owned_setOwned, if_neg hq]

/-- Settles O35. -/
theorem acceptRailMovesAFreeRail : Obligations.AcceptRailMovesAFreeRail := by
  intro s t c r o H hservice hoffer ht hlease
  let marks : List (TenantId × Subject × Reason) := [(o.offerer, .rail r, .accepted), (t, .rail r, .accepted)]
  have hexec : exec (.acceptRail t) s =
      .next (({ (s.moveRail r t).begin with marks := marks } : Happening).reply c .ok).settle := by
    show Host.Outcome.next (acceptRail t s) = _
    simp only [acceptRail, H.1, State.acceptRailBody, configurable_of_service hservice, Bool.true_eq_false, if_false,
      numbered_val, offerTo_eq hoffer ht, hlease]
    rfl
  obtain ⟨hfin, hr⟩ := finishes_of_begin (v := s.moveRail r t) H ⟨rfl, rfl, rfl⟩ marks
  exact ⟨_, hexec, (hr.owned r).trans (owned_moveRail_same s r t), fun q hq => (hr.owned q).trans (owned_moveRail_other s t hq),
    hr.keepsLeases, hr.keepsBudget, hr.keepsQueue, hr.keepsRails, hr.keepsTiers, hr.keepsService, hr.keepsClock, hfin⟩

theorem acceptFault_eq_none {s : State} {t : TenantId} {l : Lease} (hone : l.members.length = 1)
    (hstate : l.state = .waiting ∨ l.state = .suspended ∨
      (l.state = .active ∧ s.queue = [] ∧ (s.account t).charged + l.charge ≤ (s.account t).quota)) : s.acceptFault t l = none := by
  have hsettled : l.settled = true := by
    unfold Lease.settled
    obtain h | h | ⟨h, -⟩ := hstate <;> rw [h]
  have hquota : ¬(l.state = .active ∧ (s.account t).quota < (s.account t).charged + l.charge) := by
    rintro ⟨hactive, hover⟩
    obtain h | h | ⟨-, -, h⟩ := hstate
    · rw [h] at hactive; cases hactive
    · rw [h] at hactive; cases hactive
    · omega
  simp only [State.acceptFault, hone, ne_eq, not_true_eq_false, if_false, hsettled, Bool.true_eq_false, if_neg hquota]

/-- The state after a lease has moved with its rail (R146): the charge of an ACTIVE lease moves too. -/
def State.transferred (s : State) (i : SlotId) (l : Lease) (t : TenantId) : State :=
  let v := s.setLease i { l with tenant := t, count := l.count + 1 }
  if l.state = .active then (v.subCharged l.tenant l.charge).addCharged t l.charge else v

theorem transfer_eq (h : Happening) (i : SlotId) (l : Lease) (t : TenantId) :
    h.transfer i l t =
      { h with
        st := h.st.transferred i l t
        rise := h.rise || decide (l.state = .active)
        marks := h.marks ++ [(l.tenant, .lease (h.st.handleOf i), .transferred), (t, .lease (h.st.handleOf i), .transferred)] } := by
  unfold Happening.transfer State.transferred
  by_cases ha : l.state = .active
  · simp [ha, Happening.putLease, Happening.map, Happening.mark, Happening.risen]
  · simp [ha, Happening.putLease, Happening.map, Happening.mark]

/-- A transfer changes one slot and the charged totals of two tenants. -/
theorem transferred_eq (s : State) (i : SlotId) (l : Lease) (t : TenantId) (ht : l.tenant ≠ t) : ∃ accounts,
    s.transferred i l t =
      { s.setLease i { l with tenant := t, count := l.count + 1 } with accounts := accounts } ∧
    ∀ n, vget accounts n =
      if l.state = .active then
        if n = t then { s.account n with charged := (s.account n).charged + l.charge }
        else if n = l.tenant then { s.account n with charged := (s.account n).charged - l.charge }
        else s.account n
      else s.account n := by
  unfold State.transferred
  by_cases ha : l.state = .active
  · refine ⟨_, if_pos ha, fun n => ?_⟩
    simp only [if_pos ha, State.subCharged, State.setAccount, State.account, vget_vset, if_neg ht.symm]
    split
    · next hn => rw [hn]; rfl
    · split
      · next hn => rw [hn]; rfl
      · rfl
  · exact ⟨_, if_neg ha, fun n => (if_neg ha).symm⟩

/-- Settles O36. -/
theorem acceptRailMovesTheLease : Obligations.AcceptRailMovesTheLease := by
  intro s t c r o i l H hservice hoffer ht hlease hone htenant hstate
  let x := s.handleOf i
  let marks : List (TenantId × Subject × Reason) :=
    [(l.tenant, .lease x, .transferred), (t, .lease x, .transferred), (o.offerer, .rail r, .accepted), (t, .rail r, .accepted)]
  let h : Happening :=
    { (((s.moveRail r t).transferred i l t).begin) with rise := decide (l.state = .active), marks := marks }
  have hexec : exec (.acceptRail t) s = .next ((h.answer c .ok .none (some x) l.charge).settle) := by
    show Host.Outcome.next (acceptRail t s) = _
    simp only [acceptRail, H.1, State.acceptRailBody, configurable_of_service hservice, Bool.true_eq_false, if_false,
      numbered_val, offerTo_eq hoffer ht, hlease, acceptFault_eq_none hone hstate, transfer_eq]
    rfl
  obtain ⟨accounts, hmoved, haccounts⟩ := transferred_eq (s.moveRail r t) i l t htenant
  have hst : h.st = { (s.moveRail r t).setLease i { l with tenant := t, count := l.count + 1 } with accounts := accounts } := hmoved
  have hqueue : h.rise = true → h.st.queue = [] := by
    intro hrise
    have hactive : l.state = .active := of_decide_eq_true hrise
    rw [hst]
    obtain hw | hs | ⟨-, hq, -⟩ := hstate
    · rw [hw] at hactive; cases hactive
    · rw [hs] at hactive; cases hactive
    · exact hq
  obtain ⟨hfin, hr⟩ := answered s h t c _ H (by rw [hst]; exact ⟨rfl, rfl, rfl⟩) rfl rfl hqueue (fun k => nomatch k) .ok .none
    (some x) l.charge
  rw [hst] at hr
  refine ⟨_, hexec, (hr.owned r).trans (owned_moveRail_same s r t), fun q hq => (hr.owned q).trans (owned_moveRail_other s t hq),
    ?_, fun j hj => ?_, fun n => (hr.account n).trans (haccounts n), hr.chargedTotal, hr.committedTotal, hr.grantOrder, hr.feeds,
    hr.margin, hr.keepsQueue, hr.keepsRails, hr.keepsTiers, hr.keepsService, hr.keepsClock, hfin⟩
  · exact (hr.slot i).trans (State.slot_setSlot_same (s.moveRail r t) i _)
  · exact (hr.slot j).trans (keepsOtherSlots_setLease (s.moveRail r t) i _ j hj)

end Sys2Proof.Machine

/-! PROOFS. Prices (R30, R33, R38), feeds and the scan they bring (R55, R56, R83 to R85), and the shed pass (R67). -/

namespace Sys2Proof.Machine

/-! ### Prices (R30, R33, R38) -/

theorem grantVoltage_eq_some_iff (t : Tier) (v v' : Nat) : t.grantVoltage v = some v' ↔
    (t.kind = .fixed → (v = 0 ∨ v = t.vmin) ∧ v' = t.vmin) ∧
      (t.kind ≠ .fixed → v' = v ∧ t.vmin ≤ v ∧ v ≤ t.vmax ∧ v % 10 = 0) := by
  unfold Tier.grantVoltage
  split
  · next hk => simp [hk, eq_comm]
  · next hk =>
    have hk' : t.kind ≠ .fixed := hk
    simp [hk', eq_comm, and_comm]

theorem le_currentBound_iff (t : Tier) (v c : Nat) :
    c ≤ t.currentBound v ↔ c ≤ t.imax ∧ (t.kind = .capped → c ≤ t.cap * 1000 / v) := by
  unfold Tier.currentBound
  split
  · next hk => simp [hk]
  · next hk =>
    have hk' : t.kind ≠ .capped := hk
    simp [hk']

theorem price_eq_iff (t : Tier) (v c charge : Nat) : charge = t.price v c ↔
    (t.kind = .capped → charge = t.cap) ∧ (t.kind ≠ .capped → charge = (v * c + 999) / 1000) := by
  unfold Tier.price
  split
  · next hk => simp [hk]
  · next hk =>
    have hk' : t.kind ≠ .capped := hk
    have hround : ceilDiv (v * c) 1000 = (v * c + 999) / 1000 := rfl
    simp [hk', hround]

/-- Settles O11: voltage, current and charge of a grant are three questions asked of the tier, in this order. -/
theorem explicitSpecGrants : Obligations.ExplicitSpecGrants := by
  intro tiers k v c k' v' c' charge
  have hgrant : grantExplicit tiers k v c = some (k', v', c', charge) ↔
      ∃ tier, tiers[k]? = some tier ∧ tier.grantVoltage v = some v' ∧ (1 ≤ c ∧ c ≤ tier.currentBound v') ∧ k' = k ∧ c' = c ∧
        charge = tier.price v' c := by
    unfold grantExplicit
    split
    · next tier htier =>
      split
      · next w hw =>
        split
        · next hc => simp [htier, hw]; grind
        · next hc => simp [htier, hw]; grind
      · next hw => simp [htier, hw]
    · next htier => simp [htier]
  rw [hgrant]
  refine exists_congr fun tier => and_congr_right fun _ => ?_
  rw [grantVoltage_eq_some_iff, le_currentBound_iff, price_eq_iff]
  have hsame : tier.kind = .capped → tier.kind ≠ .fixed := fun h k => by rw [h] at k; cases k
  grind

/-! ### The available budget and the states of the feeds (R55 to R57) -/

theorem available_le {s u : State} (hm : u.margin = s.margin)
    (h : ∀ g, (if (u.feed g).state = .present then (u.feed g).capacity else 0) ≤
      if (s.feed g).state = .present then (s.feed g).capacity else 0) : u.available ≤ s.available := by
  have hcap : u.presentCapacity ≤ s.presentCapacity := List.sum_le_sum fun g _ => h g
  rw [State.available, State.available, hm]
  omega

theorem available_absent_le (s : State) (f : FeedId) :
    (s.setFeedRecord f { s.feed f with state := .absent }).available ≤ s.available := by
  refine available_le rfl fun g => ?_
  by_cases hg : g = f
  · rw [hg, State.feed_setFeedRecord_same, if_neg (fun h => nomatch h)]
    exact Nat.zero_le _
  · rw [State.feed_setFeedRecord, if_neg hg]

theorem available_le_present {s : State} {f : FeedId} (h : (s.feed f).state ≠ .present) :
    s.available ≤ (s.setFeedRecord f { s.feed f with state := .present }).available := by
  refine available_le rfl fun g => ?_
  by_cases hg : g = f
  · rw [hg, if_neg h]
    exact Nat.zero_le _
  · rw [State.feed_setFeedRecord, if_neg hg]

/-- Settles O57: a loss that is still covered takes no victim, and a fall of the budget asks for no scan. -/
theorem senseLinesAreFollowed : Obligations.SenseLinesAreFollowed := by
  intro s f
  refine ⟨fun h => ?_, fun d h => ?_, fun h hcover => ?_⟩
  · show Host.Outcome.next (senseLineRise f s) = _
    simp only [senseLineRise, h, State.setFeedState]
  · show Host.Outcome.next (senseLineFall f s) = _
    simp only [senseLineFall, h, State.setFeedState]
  · let v := s.setFeedRecord f { s.feed f with state := .absent }
    obtain ⟨hst, hanswers, hloose, hcheck, hrise, hmarks⟩ := budgetMoved_begin v s.available .feedLost
    have hpass : (v.begin.budgetMoved s.available .feedLost).shedPass = v.begin.budgetMoved s.available .feedLost :=
      shedPass_of_fits _ (by rw [hst]; exact hcover)
    have hexec : exec (.senseLineFall f) s = .next (v.begin.budgetMoved s.available .feedLost).settle := by
      rw [← hpass]
      show Host.Outcome.next (senseLineFall f s) = _
      simp only [senseLineFall, h]
      rfl
    obtain ⟨hposts, hr⟩ := posted s (v.begin.budgetMoved s.available .feedLost) (by rw [hst]; exact ⟨rfl, rfl, rfl⟩) hanswers
      hloose (fun k => by rw [hrise] at k; exact absurd (of_decide_eq_true k) (Nat.not_lt.mpr (available_absent_le s f)))
      (fun k => by rw [hcheck] at k; cases k)
    rw [hst] at hr
    have hmoved : (v.begin.budgetMoved s.available .feedLost).marks =
        movedMarks s (v.begin.budgetMoved s.available .feedLost).settle .feedLost := by
      rw [hmarks, movedMarks, hr.available]
    rw [hmoved] at hposts
    exact ⟨_, hexec, (hr.feed f).trans (State.feed_setFeedRecord_same s f _),
      fun g hg => (hr.feed g).trans ((State.feed_setFeedRecord s f g _).trans (if_neg hg)), hr.margin, hr.accounts,
      hr.chargedTotal, hr.committedTotal, hr.grantOrder, hr.keepsLeases, hr.keepsQueue, hr.keepsRails, hr.keepsTiers,
      hr.keepsOwners, hr.keepsService, hr.keepsClock, hposts⟩

/-! ### The victim of a shed pass (R67) -/

/-- The better of two candidates for the victim (R67). -/
def State.worse (s : State) (best : Option Handle) (h : Handle) : Option Handle :=
  match best with
  | none => some h
  | some b => if s.classOf h ≤ s.classOf b then some h else some b

theorem victim_eq_foldl (s : State) : s.victim = s.grantOrder.foldl s.worse none := rfl

/-- `v` stands in a list as R67 chooses: no class before it is below its own, and every class after it is above. -/
def State.Chosen (s : State) (v : Handle) (list : List Handle) : Prop :=
  ∃ before after, list = before ++ v :: after ∧ (∀ h ∈ before, s.classOf v ≤ s.classOf h) ∧
    ∀ h ∈ after, s.classOf v < s.classOf h

/-- The fold keeps the choice of R67 for the part of the list behind it. -/
theorem foldl_worse (s : State) (b : Handle) (list : List Handle) (before : List Handle) (hb : s.Chosen b before) :
    ∃ v, list.foldl s.worse (some b) = some v ∧ s.Chosen v (before ++ list) := by
  induction list generalizing b before with
  | nil => exact ⟨b, rfl, by rw [List.append_nil]; exact hb⟩
  | cons h list ih =>
    have hnext : ∃ w, s.worse (some b) h = some w ∧ s.Chosen w (before ++ [h]) := by
      obtain ⟨front, back, rfl, hfront, hback⟩ := hb
      by_cases hle : s.classOf h ≤ s.classOf b
      · refine ⟨h, if_pos hle, front ++ b :: back, [], rfl, fun x hx => ?_, fun x hx => absurd hx List.not_mem_nil⟩
        obtain hx | hx | hx := (List.mem_append.mp hx).imp_right List.mem_cons.mp
        · exact hle.trans (hfront x hx)
        · exact hx ▸ hle
        · exact hle.trans (hback x hx).le
      · refine ⟨b, if_neg hle, front, back ++ [h], by simp, hfront, fun x hx => ?_⟩
        obtain hx | hx := List.mem_append.mp hx
        · exact hback x hx
        · rw [List.mem_singleton.mp hx]
          exact Nat.not_le.mp hle
    obtain ⟨w, hw, hchosen⟩ := hnext
    rw [List.foldl_cons, hw]
    have hrest := ih w (before ++ [h]) hchosen
    rwa [List.append_assoc] at hrest

theorem victim_of_cons {s : State} {h : Handle} {list : List Handle} (hl : s.grantOrder = h :: list) :
    ∃ v, s.victim = some v ∧ s.Chosen v s.grantOrder := by
  rw [victim_eq_foldl, hl]
  exact foldl_worse s h list [h] ⟨[], [], rfl, fun _ k => absurd k List.not_mem_nil, fun _ k => absurd k List.not_mem_nil⟩

/-- Settles O59. -/
theorem victimIsNewestOfTheLowestClass : Obligations.VictimIsNewestOfTheLowestClass := by
  intro s
  cases hl : s.grantOrder with
  | nil =>
    have hnone : s.victim = none := by rw [victim_eq_foldl, hl]; rfl
    exact ⟨iff_of_true hnone rfl, fun v hv => by rw [hnone] at hv; cases hv⟩
  | cons h list =>
    obtain ⟨w, hw, hchosen⟩ := victim_of_cons hl
    refine ⟨iff_of_false (by rw [hw]; exact Option.some_ne_none w) (List.cons_ne_nil _ _), fun v hv => ?_⟩
    rw [hw] at hv
    cases hv
    rwa [State.Chosen, hl] at hchosen

theorem victim_mem {s : State} {v : Handle} (h : s.victim = some v) : v ∈ s.grantOrder := by
  obtain ⟨before, after, hl, -, -⟩ := (victimIsNewestOfTheLowestClass s).2 v h
  rw [hl]
  exact List.mem_append_right _ List.mem_cons_self

/-! ### What a victim takes from the committed total (R60, R67, R68) -/

/-- The committed total and the grant order list are as they were. -/
def KeepsLedger (s u : State) : Prop := u.committedTotal = s.committedTotal ∧ u.grantOrder = s.grantOrder

theorem KeepsLedger.trans {s u v : State} (h : KeepsLedger s u) (k : KeepsLedger u v) : KeepsLedger s v :=
  ⟨k.1.trans h.1, k.2.trans h.2⟩

theorem keepsLedger_enterFalling (s : State) (r : RailId) : KeepsLedger s (s.enterFalling r) := by
  unfold State.enterFalling
  split <;> exact ⟨rfl, rfl⟩

theorem keepsLedger_fallAll (s : State) (ms : List Member) : KeepsLedger s (s.fallAll ms) := by
  unfold State.fallAll
  induction ms generalizing s with
  | nil => exact ⟨rfl, rfl⟩
  | cons m ms ih => exact (keepsLedger_enterFalling s m.rail).trans (ih _)

theorem keepsLedger_setMemberships (s : State) (ms : List Member) (h : Option Handle) : KeepsLedger s (s.setMemberships ms h) := by
  obtain ⟨v, hv, -⟩ := setMemberships_rails s ms h
  rw [hv]
  exact ⟨rfl, rfl⟩

theorem keepsLedger_enterSuspended (h : Happening) (i : SlotId) (l : Lease) : KeepsLedger h.st (h.enterSuspended i l).st := ⟨rfl, rfl⟩

theorem keepsLedger_takeTurn (h : Happening) (i : SlotId) (l : Lease) (stop : StopRecord) : KeepsLedger h.st (h.takeTurn i l stop).st := by
  unfold Happening.takeTurn
  simp only
  split
  · split
    · exact keepsLedger_enterFalling (h.putLease i _).st _
    · exact ⟨rfl, rfl⟩
  · exact ⟨rfl, rfl⟩

theorem endLease_ledger (h : Happening) (i : SlotId) (l : Lease) (reason : EndReason) :
    KeepsLedger (h.giveBack i l).st (h.endLease i l reason).st :=
  keepsLedger_setMemberships (h.giveBack i l).st l.members none

theorem endLease_keepsLedger (h : Happening) (i : SlotId) (l : Lease) (reason : EndReason) (hl : l.committed = false) :
    KeepsLedger h.st (h.endLease i l reason).st := by
  refine KeepsLedger.trans (u := (h.giveBack i l).st) ?_ (endLease_ledger h i l reason)
  unfold Happening.giveBack
  split
  · next hs => simp [Lease.committed, hs] at hl
  all_goals exact ⟨rfl, rfl⟩

/-- A stop that was not caused by a fault never returns its lease to RETRY_WAIT (R130). -/
theorem stopOutcome_ne_retry {s : State} {l : Lease} {stop : StopRecord} (h : stop.cause ≠ .fault) : s.stopOutcome l stop ≠ .retry := by
  unfold State.stopOutcome
  simp only [if_neg h]
  repeat' split
  all_goals exact fun k => nomatch k

theorem settleStop_keepsLedger (h : Happening) (i : SlotId) (l : Lease) (stop : StopRecord) (hcause : stop.cause ≠ .fault)
    (hl : l.committed = false) : KeepsLedger h.st (h.settleStop i l stop).st := by
  unfold Happening.settleStop
  split
  · next hretry => exact absurd hretry (stopOutcome_ne_retry hcause)
  · have hsuspended : KeepsLedger h.st ((h.map fun s => s.creditHeld l.tenant l.charge).risen.enterSuspended i l).st :=
      keepsLedger_enterSuspended (h.map fun s => s.creditHeld l.tenant l.charge).risen i l
    simp only
    split
    · next l1 hl1 =>
      split
      · refine hsuspended.trans (endLease_keepsLedger _ i l1 .lapsed ?_)
        rw [State.lease?, enterSuspended_slot, if_pos rfl] at hl1
        cases hl1
        rfl
      · exact hsuspended
    · exact hsuspended
  · exact endLease_keepsLedger h i l _ hl

theorem beginStop_keepsLedger (h : Happening) (i : SlotId) (l : Lease) (stop : StopRecord) (hcause : stop.cause ≠ .fault)
    (hl : l.committed = false) : KeepsLedger h.st (h.beginStop i l stop).st := by
  unfold Happening.beginStop
  split
  · exact settleStop_keepsLedger h i l stop hcause hl
  · split
    · exact keepsLedger_takeTurn h i l stop
    · exact keepsLedger_fallAll h.st l.members

/-- The record of a running lease that has entered STOPPING, its pending adjustment resolved (R9, R15, R52). -/
def Lease.stopped (l : Lease) (cause : StopCause) (fault : Option (RailId × FaultKind)) : Lease :=
  { l.resolved cause with state := .stopping (stopRecord l cause fault), count := (l.resolved cause).count + 1 }

/-- The entry to STOPPING: the totals, the grant order list, the record and its marker (R9, R52, R60). -/
def Happening.enterStopping (h : Happening) (i : SlotId) (l : Lease) (cause : StopCause) (fault : Option (RailId × FaultKind)) :
    Happening :=
  ((h.creditFall l.tenant l.charge (l.resolved cause).charge).map fun s =>
    ({ s with committedTotal := s.committedTotal - (l.resolved cause).charge } : State).leaveList (s.handleOf i)).changeLease i
      { l.resolved cause with state := .stopping (stopRecord l cause fault) } .stopping

/-- A stop is the entry to STOPPING followed by the beginning of the stop sequence. -/
theorem stopLease_eq (h : Happening) (i : SlotId) (l : Lease) (cause : StopCause) (fault : Option (RailId × FaultKind)) :
    h.stopLease i l cause fault =
      (h.enterStopping i l cause fault).beginStop i (l.stopped cause fault) (stopRecord l cause fault) := by
  have hlease : (h.enterStopping i l cause fault).st.lease? i = some (l.stopped cause fault) := by
    rw [State.lease?, Happening.enterStopping, changeLease_slot, if_pos rfl]
    rfl
  show (match (h.enterStopping i l cause fault).st.lease? i with
    | some l3 => (h.enterStopping i l cause fault).beginStop i l3 (stopRecord l cause fault)
    | none => h.enterStopping i l cause fault) = _
  rw [hlease]

/-- Without a FAULT a lease stops at the charge it holds (R52). -/
theorem resolved_charge (l : Lease) {cause : StopCause} (hcause : cause ≠ .fault) : (l.resolved cause).charge = l.charge := by
  unfold Lease.resolved
  split
  · exact if_neg hcause
  · rfl

theorem creditFall_self (h : Happening) (t : TenantId) (n : Nat) : h.creditFall t n n = h := if_neg (lt_irrefl n)

/-- A stop other than of a FAULT takes the lease's charge and place from the committed total and the grant order list (R60). -/
theorem stopLease_ledger (h : Happening) (i : SlotId) (l : Lease) (cause : StopCause) (hcause : cause ≠ .fault) :
    (h.stopLease i l cause none).st.committedTotal = h.st.committedTotal - l.charge ∧
      (h.stopLease i l cause none).st.grantOrder = h.st.grantOrder.filter (· ≠ h.st.handleOf i) := by
  have hentry : (h.enterStopping i l cause none).st.committedTotal = h.st.committedTotal - l.charge ∧
      (h.enterStopping i l cause none).st.grantOrder = h.st.grantOrder.filter (· ≠ h.st.handleOf i) := by
    rw [Happening.enterStopping, resolved_charge l hcause, creditFall_self]
    exact ⟨rfl, rfl⟩
  obtain ⟨hcommitted, horder⟩ := beginStop_keepsLedger (h.enterStopping i l cause none) i (l.stopped cause none)
    (stopRecord l cause none) hcause rfl
  rw [stopLease_eq]
  exact ⟨hcommitted.trans hentry.1, horder.trans hentry.2⟩

/-- A victim leaves the grant order list and takes its charge from the committed total, and no other slot changes (R67, R68). -/
theorem shed_effect (h : Happening) {v : Handle} {l : Lease} (hl : h.st.resolve v = some l) (hc : l.committed = true) :
    (h.shed v).st.committedTotal = h.st.committedTotal - l.charge ∧
      (h.shed v).st.grantOrder = h.st.grantOrder.filter (· ≠ v) ∧ KeepsOtherSlots h.st (h.shed v).st v.slot := by
  obtain ⟨-, hlease, hhandle⟩ := resolve_slot hl
  have hstop : (h.stopLease v.slot l .shed none).st.committedTotal = h.st.committedTotal - l.charge ∧
      (h.stopLease v.slot l .shed none).st.grantOrder = h.st.grantOrder.filter (· ≠ v) ∧
        KeepsOtherSlots h.st (h.stopLease v.slot l .shed none).st v.slot := by
    obtain ⟨hcommitted, horder⟩ := stopLease_ledger h v.slot l .shed (fun k => nomatch k)
    rw [hhandle] at horder
    exact ⟨hcommitted, horder, fun j hj => stopLease_otherSlots h v.slot l .shed none j hj⟩
  unfold Happening.shed
  rw [hlease]
  simp only
  split
  · next hs =>
    split
    · refine ⟨rfl, rfl, fun j hj => ?_⟩
      rw [enterSuspended_slot, if_neg hj]
      rfl
    · obtain ⟨hcommitted, horder⟩ := endLease_ledger h v.slot l .shed
      have hback : (h.giveBack v.slot l).st = (h.st.creditAll l.tenant l.charge).leaveList v := by
        simp only [Happening.giveBack, hs, Happening.risen_st, Happening.map_st, hhandle]
      rw [hback] at hcommitted horder
      refine ⟨hcommitted, horder, fun j hj => ?_⟩
      rw [(endLease_effect h v.slot l .shed).1, if_neg hj]
  · exact hstop
  · exact hstop
  · exact hstop
  · next h1 h2 h3 h4 =>
    unfold Lease.committed at hc
    split at hc
    · next hs => exact absurd hs (h2 _)
    · next hs => exact absurd hs h3
    · next hs => exact absurd hs (h4 _)
    · next hs => exact absurd hs (h1 _)
    · cases hc

/-- The charge that a handle on the grant order list stands for. -/
def State.chargeAt (s : State) (h : Handle) : Nat := ((s.lease? h.slot).map Lease.charge).getD 0

/-- What the shed pass needs of the grant order list: its handles are distinct and name committed leases, whose charges cover the
committed total. -/
structure Coverable (s : State) : Prop where
  nodup : s.grantOrder.Nodup
  named : ∀ h ∈ s.grantOrder, ∃ l, s.resolve h = some l ∧ l.committed = true
  total : s.committedTotal ≤ (s.grantOrder.map s.chargeAt).sum

theorem mem_records {s : State} {x : SlotId × Lease} : x ∈ s.records ↔ s.lease? x.1 = some x.2 := by
  obtain ⟨i, l⟩ := x
  unfold State.records
  simp

theorem records_slots_nodup (s : State) : (s.records.map Prod.fst).Nodup := by
  unfold State.records
  rw [List.map_filterMap]
  refine (List.nodup_finRange 16).filterMap fun i j b hi hj => ?_
  simp only [Option.map_map, Option.mem_def, Option.map_eq_some_iff, Function.comp] at hi hj
  obtain ⟨-, -, rfl⟩ := hi
  obtain ⟨-, -, hj⟩ := hj
  exact hj.symm

/-- Of the committed records each stands on the grant order list, so the list's charges cover their sum (R59, R63). -/
theorem coverable_of_laws {s : State} (htotals : TotalsLaw s) (horder : GrantOrderLaw s) : Coverable s := by
  obtain ⟨-, htotal, -⟩ := htotals
  obtain ⟨hnodup, hnamed, hlisted⟩ := horder
  refine ⟨hnodup, hnamed, ?_⟩
  let committed := s.records.filter fun x => x.2.committed
  have hcharge : committed.map (fun x => x.2.charge) = (committed.map fun x => s.handleOf x.1).map s.chargeAt := by
    rw [List.map_map]
    refine List.map_congr_left fun x hx => ?_
    have hx' := mem_records.mp (List.mem_of_mem_filter hx)
    simp [State.chargeAt, State.handleOf, hx']
  have hhandles : (committed.map fun x => s.handleOf x.1).Nodup := by
    refine List.Nodup.of_map Handle.slot ?_
    rw [List.map_map]
    exact (List.filter_sublist.map Prod.fst).nodup (records_slots_nodup s)
  have hsubset : (committed.map fun x => s.handleOf x.1) ⊆ s.grantOrder := by
    intro h hh
    obtain ⟨x, hx, rfl⟩ := List.mem_map.mp hh
    obtain ⟨hrecord, hc⟩ := List.mem_filter.mp hx
    exact hlisted x hrecord hc
  rw [htotal, State.sumCharges, hcharge]
  obtain ⟨list, hperm, hsub⟩ := hhandles.subperm hsubset
  rw [← (hperm.map s.chargeAt).sum_eq]
  exact (hsub.map s.chargeAt).sum_le_sum fun _ _ => Nat.zero_le _

theorem coverable_shed {h : Happening} {v : Handle} (hc : Coverable h.st) (hv : v ∈ h.st.grantOrder) :
    Coverable (h.shed v).st ∧ (h.shed v).st.grantOrder.length + 1 = h.st.grantOrder.length := by
  obtain ⟨l, hl, hcommitted⟩ := hc.named v hv
  obtain ⟨htotal, horder, hslots⟩ := shed_effect h hl hcommitted
  have herase : (h.shed v).st.grantOrder = h.st.grantOrder.erase v := by
    rw [horder, hc.nodup.erase_eq_filter]
    refine List.filter_congr fun x _ => ?_
    rw [Bool.eq_iff_iff, decide_eq_true_iff, bne_iff_ne]
  have hother : ∀ x ∈ h.st.grantOrder.erase v, (h.shed v).st.slot x.slot = h.st.slot x.slot := by
    intro x hx
    obtain ⟨hne, hmem⟩ := hc.nodup.mem_erase_iff.mp hx
    refine hslots x.slot fun hslot => hne ?_
    obtain ⟨lx, hlx, -⟩ := hc.named x hmem
    rw [← (resolve_slot hlx).2.2, hslot, (resolve_slot hl).2.2]
  have hlv : h.st.chargeAt v = l.charge := by
    simp [State.chargeAt, (resolve_slot hl).2.1]
  refine ⟨⟨herase ▸ hc.nodup.erase v, fun x hx => ?_, ?_⟩, ?_⟩
  · rw [herase] at hx
    obtain ⟨lx, hlx, hcx⟩ := hc.named x (List.mem_of_mem_erase hx)
    refine ⟨lx, ?_, hcx⟩
    unfold State.resolve State.lease? at hlx ⊢
    rw [hother x hx]
    exact hlx
  · have hsum : ((h.st.grantOrder.erase v).map (h.shed v).st.chargeAt) = (h.st.grantOrder.erase v).map h.st.chargeAt := by
      refine List.map_congr_left fun x hx => ?_
      unfold State.chargeAt State.lease?
      rw [hother x hx]
    have herased := List.sum_map_erase h.st.chargeAt hv
    have hcover := hc.total
    rw [htotal, herase, hsum]
    omega
  · rw [herase, List.length_erase_of_mem hv]
    have := List.length_pos_of_mem hv
    omega

theorem shedWhile_within (n : Nat) {h : Happening} (hc : Coverable h.st) (hn : h.st.grantOrder.length ≤ n) :
    BudgetLaw (Happening.shedWhile n h).st := by
  induction n generalizing h with
  | zero =>
    have hnil : h.st.grantOrder = [] := List.length_eq_zero_iff.mp (Nat.le_zero.mp hn)
    have htotal := hc.total
    rw [hnil] at htotal
    exact htotal.trans (Nat.zero_le _)
  | succ n ih =>
    unfold Happening.shedWhile
    split
    · next hover =>
      split
      · next v hv =>
        obtain ⟨hcov, hlen⟩ := coverable_shed hc (victim_mem hv)
        exact ih hcov (by omega)
      · next hnone =>
        have hnil := (victimIsNewestOfTheLowestClass h.st).1.mp hnone
        have htotal := hc.total
        rw [hnil] at htotal
        exact htotal.trans (Nat.zero_le _)
    · next hwithin => exact Nat.not_lt.mp hwithin

/-- Settles O60: the charges of the list cover the committed total, and each victim takes its own charge from both. -/
theorem shedPassEndsWithinTheBudget : Obligations.ShedPassEndsWithinTheBudget := fun _ htotals horder =>
  shedWhile_within _ (coverable_of_laws htotals horder) (Nat.le_refl _)

end Sys2Proof.Machine

/-! PROOFS. The start of a member's rise (R100), and the scan of the deferred queue at QUALIFY_DEADLINE (R56, R83 to R85). -/

namespace Sys2Proof.Machine

/-! ### A member begins to rise (R100) -/

/-- The rail of a member that begins to rise (R96, R100). -/
def State.risingRail (s : State) (m : Member) : Rail :=
  { s.rail m.rail with
    state := .rising (s.now + (m.voltage + (s.config m.rail).rampRate - 1) / (s.config m.rail).rampRate +
      (s.config m.rail).allowance)
    drive := .moving 0 m.voltage (s.config m.rail).rampRate s.now, currentLimit := m.current }

theorem raiseMember_eq {h : Happening} {l : Lease} {k : Nat} {m : Member} (hm : l.members[k]? = some m)
    (hoff : (h.st.rail m.rail).state = .off) :
    h.raiseMember l k = h.map fun _ => h.st.setRail m.rail (h.st.risingRail m) := by
  simp only [Happening.raiseMember, hm, Happening.map, State.enterRising, hoff]
  rfl

/-- A write of one rail's live state leaves every other rail, and every fault record, as it was. -/
theorem keepsOtherRails_setRail (s : State) (r : RailId) (x : Rail) : KeepsOtherRails s (s.setRail r x) r :=
  ⟨rfl, fun q hq => ⟨(State.rail_setRail s r q x).trans (if_neg hq), rfl⟩⟩

/-! ### The walk of a scan (R83) -/

theorem walk_of_scanEnds {h : Happening} {entries : List QueueEntry} (he : h.st.ScanEnds entries) (skipped : List Handle) :
    h.walk skipped entries = h := by
  obtain ⟨front, rest, rfl, hfront, hrest⟩ := he
  induction front generalizing skipped with
  | nil =>
    cases rest with
    | nil => rfl
    | cons e rest =>
      obtain ⟨⟨l, hl, hfit⟩, hblock⟩ := hrest e rfl
      simp only [List.nil_append, Happening.walk, hl, hfit, Bool.false_eq_true, if_false, hblock, if_true]
  | cons e front ih =>
    obtain ⟨⟨⟨l, hl, hfit⟩, hblock⟩, hfront'⟩ := List.forall_mem_cons.mp hfront
    simp only [List.cons_append, Happening.walk, hl, hfit, Bool.false_eq_true, if_false, hblock]
    exact ih _ hfront'

/-- Entries that do not fit and do not block are skipped (R83). -/
theorem walk_append {h : Happening} {front : List QueueEntry}
    (hfront : ∀ e ∈ front, h.st.Unfit e ∧ e.blocking h.st.passLimit = false) (skipped : List Handle) (entries : List QueueEntry) :
    h.walk skipped (front ++ entries) = h.walk (skipped ++ front.map QueueEntry.handle) entries := by
  induction front generalizing skipped with
  | nil => rw [List.nil_append, List.map_nil, List.append_nil]
  | cons e front ih =>
    obtain ⟨⟨⟨l, hl, hfit⟩, hblock⟩, hfront'⟩ := List.forall_mem_cons.mp hfront
    simp only [List.cons_append, Happening.walk, hl, hfit, Bool.false_eq_true, if_false, hblock]
    rw [ih hfront', List.map_cons, List.append_assoc]
    rfl

/-- The end of a happening without commands and drains, once its scan is known. -/
theorem posted_of_scan (s : State) (h g : Happening) (hscan : (if h.rise then h.scan else h) = g) (e : SameRings s g.st)
    (ha : g.answers = []) (hl : g.loose = []) (hc : g.check = false) :
    Posts s h.settle g.marks ∧ OnlyRings g.st h.settle := by
  have hflush : h.settle = g.flush := by
    unfold Happening.settle
    simp only [hscan, hc, Bool.false_eq_true, if_false]
  rw [hflush, flush_posts g ha hl]
  exact ⟨e.posts (posts_postAll _ _), onlyRings_postAll _ _⟩

/-! ### The grant of an entry (R84) -/

theorem account_charge (s : State) (t n : TenantId) (c : Nat) :
    (s.charge t c).account n = if n = t then { s.account n with charged := (s.account n).charged + c } else s.account n := by
  rw [State.charge, State.addCharged, State.account_setAccount]
  split
  · next hn => rw [hn]; rfl
  · rfl

/-- The state after the grant of an entry whose first member's rail is OFF (R84, R85). -/
def State.entryGranted (s : State) (e : QueueEntry) (l : Lease) (m : Member) (skipped : List Handle) : State :=
  { s with
    slots := (s.setLease e.handle.slot { l with state := .starting (.rising 0), count := l.count + 1 }).slots
    accounts := (s.charge l.tenant l.charge).accounts
    chargedTotal := s.chargedTotal + l.charge, committedTotal := s.committedTotal + l.charge
    grantOrder := s.grantOrder ++ [e.handle]
    queue := (s.queue.filter (·.handle ≠ e.handle)).map fun x => if x.handle ∈ skipped then x.passed else x
    rails := (s.setRail m.rail (s.risingRail m)).rails }

theorem sameRings_entryGranted (s : State) (e : QueueEntry) (l : Lease) (m : Member) (skipped : List Handle) :
    SameRings s (s.entryGranted e l m skipped) := ⟨rfl, rfl, rfl⟩

theorem grantEntry_eq {h : Happening} {e : QueueEntry} {l : Lease} {m : Member} {ms : List Member} (skipped : List Handle)
    (hl : h.st.liveLease e.handle = some l) (hms : l.members = m :: ms) (hoff : (h.st.rail m.rail).state = .off) :
    h.grantEntry e l skipped =
      { h with
        st := h.st.entryGranted e l m skipped, marks := h.marks ++ [(l.tenant, .lease e.handle, .starting)] } := by
  have hm : ({ l with state := .starting (.rising 0) } : Lease).members[0]? = some m := by
    rw [hms]
    rfl
  obtain ⟨-, -, hhandle, -, -⟩ := liveLease_slot hl
  show Happening.raiseMember _ _ 0 = _
  rw [raiseMember_eq hm (by exact hoff)]
  have hmark : (h.st.removeEntry e.handle).handleOf e.handle.slot = e.handle := hhandle
  simp only [Happening.changeLease, Happening.map, Happening.putLease, Happening.mark, hmark]
  rfl

theorem QueueEntry.passed_handle (e : QueueEntry) : e.passed.handle = e.handle := by
  unfold QueueEntry.passed
  split <;> rfl

/-- The queue after a grant: the entry has left it, and the entries it passed have gained a pass (R78, R85). -/
theorem entryGranted_queue {s : State} {e : QueueEntry} (l : Lease) (m : Member) {front rest : List QueueEntry}
    (hq : s.queue = front ++ e :: rest) (hnodup : (s.queue.map QueueEntry.handle).Nodup) :
    (s.entryGranted e l m (front.map QueueEntry.handle)).queue = front.map QueueEntry.passed ++ rest := by
  have hqueue : (s.entryGranted e l m (front.map QueueEntry.handle)).queue =
      (s.queue.filter (·.handle ≠ e.handle)).map fun x => if x.handle ∈ front.map QueueEntry.handle then x.passed else x := rfl
  rw [hq, List.map_append, List.map_cons, List.nodup_append] at hnodup
  obtain ⟨-, hrest, hdisjoint⟩ := hnodup
  obtain ⟨hnotin, -⟩ := List.nodup_cons.mp hrest
  have hfront : ∀ x ∈ front, x.handle ≠ e.handle := fun x hx =>
    hdisjoint _ (List.mem_map_of_mem hx) _ List.mem_cons_self
  have hbehind : ∀ x ∈ rest, x.handle ≠ e.handle := fun x hx h => hnotin (h ▸ List.mem_map_of_mem hx)
  have hpassed : ∀ x ∈ rest, x.handle ∉ front.map QueueEntry.handle := fun x hx h =>
    hdisjoint _ h _ (List.mem_cons_of_mem _ (List.mem_map_of_mem hx)) rfl
  rw [hqueue, hq, List.filter_append, List.filter_cons_of_neg (by simp),
    List.filter_eq_self.mpr fun x hx => decide_eq_true (hfront x hx),
    List.filter_eq_self.mpr fun x hx => decide_eq_true (hbehind x hx), List.map_append]
  congr 1
  · exact List.map_congr_left fun x hx => if_pos (List.mem_map_of_mem hx)
  · exact (List.map_congr_left fun x hx => if_neg (hpassed x hx)).trans (List.map_id _)

/-- Where a scan would end behind a grant by the totals alone, it ends there: the granted lease's own slot decides for no other
entry. -/
theorem scanEnds_entryGranted {s : State} {e : QueueEntry} {l : Lease} (m : Member) {rest : List QueueEntry} (skipped : List Handle)
    (hl : s.liveLease e.handle = some l) (hrest : ∀ x ∈ rest, x.handle ≠ e.handle)
    (h : (s.charge l.tenant l.charge).ScanEnds rest) : (s.entryGranted e l m skipped).ScanEnds rest := by
  have hunfit : ∀ x ∈ rest, (s.charge l.tenant l.charge).Unfit x → (s.entryGranted e l m skipped).Unfit x := by
    rintro x hx ⟨lx, hlx, hfit⟩
    refine ⟨lx, ?_, hfit⟩
    have hlx' : s.liveLease x.handle = some lx := hlx
    have hslot : x.handle.slot ≠ e.handle.slot := fun heq => hrest x hx <| by
      obtain ⟨-, -, hex, -⟩ := liveLease_slot hlx'
      obtain ⟨-, -, hee, -⟩ := liveLease_slot hl
      rw [← hex, heq, hee]
    have hsame : (s.entryGranted e l m skipped).slot x.handle.slot = s.slot x.handle.slot :=
      (slot_setLease s e.handle.slot x.handle.slot _).trans (if_neg hslot)
    unfold State.liveLease State.resolve State.lease? at hlx' ⊢
    rw [hsame]
    exact hlx'
  obtain ⟨front, behind, rfl, hfront, hbehind⟩ := h
  refine ⟨front, behind, rfl, fun x hx => ?_, fun x hx => ?_⟩
  · exact ⟨hunfit x (List.mem_append_left _ hx) (hfront x hx).1, (hfront x hx).2⟩
  · exact ⟨hunfit x (List.mem_append_right _ (List.mem_of_mem_head? hx)) (hbehind x hx).1, (hbehind x hx).2⟩

/-- A scan that grants the entry behind those it skips, and no more (R83 to R85). -/
theorem scan_grants_one {h : Happening} {front rest : List QueueEntry} {e : QueueEntry} {l : Lease} {m : Member}
    {ms : List Member} (hq : h.st.queue = front ++ e :: rest) (hnodup : (h.st.queue.map QueueEntry.handle).Nodup)
    (hfront : ∀ x ∈ front, h.st.Unfit x ∧ x.blocking h.st.passLimit = false) (hl : h.st.liveLease e.handle = some l)
    (hms : l.members = m :: ms) (hoff : (h.st.rail m.rail).state = .off) (hfits : h.st.fits l.tenant l.charge = true)
    (hend : (∃ x ∈ front, x.passed.blocking h.st.passLimit = true) ∨ (h.st.charge l.tenant l.charge).ScanEnds rest) :
    h.scan =
      { h with
        st := h.st.entryGranted e l m (front.map QueueEntry.handle)
        marks := h.marks ++ [(l.tenant, .lease e.handle, .starting)] } := by
  have hqueue := entryGranted_queue l m hq hnodup
  have hgrant := grantEntry_eq (front.map QueueEntry.handle) hl hms hoff
  rw [Happening.scan, hq, walk_append hfront, List.nil_append]
  simp only [Happening.walk, hl, hfits, if_true, hgrant]
  split
  · rfl
  · next hblocks =>
    obtain ⟨x, hx, hblock⟩ | hend := hend
    · refine absurd ?_ hblocks
      rw [State.skippedBlocks, List.any_eq_true]
      refine ⟨x.passed, ?_, ?_⟩
      · show x.passed ∈ (h.st.entryGranted e l m (front.map QueueEntry.handle)).queue
        rw [hqueue]
        exact List.mem_append_left _ (List.mem_map_of_mem hx)
      · rw [QueueEntry.passed_handle, Bool.and_eq_true]
        exact ⟨decide_eq_true (List.mem_map_of_mem hx), hblock⟩
    · rw [hq, List.map_append, List.map_cons, List.nodup_append] at hnodup
      obtain ⟨hnotin, -⟩ := List.nodup_cons.mp hnodup.2.1
      have hrest : ∀ x ∈ rest, x.handle ≠ e.handle := fun x hx k => hnotin (k ▸ List.mem_map_of_mem hx)
      exact walk_of_scanEnds (h := { h with
        st := h.st.entryGranted e l m (front.map QueueEntry.handle)
        marks := h.marks ++ [(l.tenant, .lease e.handle, .starting)] }) (scanEnds_entryGranted m _ hl hrest hend) _

/-- All that a granted entry changes outside the rings (R84, R85). -/
theorem onlyRings_entryGranted {v u : State} {front rest : List QueueEntry} {e : QueueEntry} {l : Lease} {m : Member}
    (hq : v.queue = front ++ e :: rest) (hnodup : (v.queue.map QueueEntry.handle).Nodup) (hl : v.liveLease e.handle = some l)
    (hr : OnlyRings (v.entryGranted e l m (front.map QueueEntry.handle)) u) :
    (∀ g, u.feed g = v.feed g) ∧ u.margin = v.margin ∧
      u.slot e.handle.slot =
        { gen := e.handle.gen, lease := some { l with state := .starting (.rising 0), count := l.count + 1 } } ∧
      KeepsOtherSlots v u e.handle.slot ∧
      u.chargedTotal = v.chargedTotal + l.charge ∧ u.committedTotal = v.committedTotal + l.charge ∧
      (∀ n, u.account n =
        if n = l.tenant then { v.account n with charged := (v.account n).charged + l.charge } else v.account n) ∧
      u.grantOrder = v.grantOrder ++ [e.handle] ∧ u.queue = front.map QueueEntry.passed ++ rest ∧ u.passLimit = v.passLimit ∧
      u.defaultWait = v.defaultWait ∧ u.rail m.rail = v.risingRail m ∧ u.faultRecord m.rail = v.faultRecord m.rail ∧
      KeepsOtherRails v u m.rail ∧ KeepsTiers v u ∧ KeepsOwners v u ∧ KeepsService v u ∧ KeepsClock v u := by
  have hother := keepsOtherRails_setRail v m.rail (v.risingRail m)
  refine ⟨hr.feed, hr.margin, ?_, fun j hj => ?_, hr.chargedTotal, hr.committedTotal, fun n => ?_, hr.grantOrder,
    hr.queue.trans (entryGranted_queue l m hq hnodup), hr.passLimit, hr.defaultWait,
    (hr.rail m.rail).trans (State.rail_setRail_same v m.rail _), hr.faultRecord m.rail,
    ⟨hr.railConfig, fun q hq' => ⟨(hr.rail q).trans (hother.2 q hq').1, hr.faultRecord q⟩⟩, hr.keepsTiers, hr.keepsOwners,
    hr.keepsService, hr.keepsClock⟩
  · exact (hr.slot _).trans (slot_setLease_of_liveLease hl _)
  · exact (hr.slot j).trans (keepsOtherSlots_setLease v e.handle.slot _ j hj)
  · exact (hr.account n).trans (account_charge v l.tenant n l.charge)

/-! ### QUALIFY_DEADLINE (R56) -/

theorem exec_qualifyDeadline {s : State} {f : FeedId} {d : Nat} (h : (s.feed f).state = .qualifying d) :
    exec (.qualifyDeadline f) s =
      .next (s.atDeadline d
        (((s.setFeedRecord f { s.feed f with state := .present }).begin.budgetMoved s.available .feedPresent).settle)) := by
  show Host.Outcome.next (qualifyDeadline f s) = _
  simp only [qualifyDeadline, h]
  rfl

/-- Settles O58: the scan stands still, or grants one entry and stands still behind it. -/
theorem qualifiedFeedIsPresent : Obligations.QualifiedFeedIsPresent := by
  intro s f d h
  have hexec := exec_qualifyDeadline h
  refine ⟨fun hlt => by rw [hexec, State.atDeadline_of_lt _ hlt], fun hle => ?_⟩
  rw [State.atDeadline_of_le _ hle] at hexec
  intro v
  obtain ⟨hst, hanswers, hloose, hcheck, hrise, hmarks⟩ := budgetMoved_begin v s.available .feedPresent
  have hnotpresent : (s.feed f).state ≠ .present := by rw [h]; exact fun k => nomatch k
  have hfeed : v.feed f = { s.feed f with state := .present } := State.feed_setFeedRecord_same s f _
  have hotherFeeds : ∀ g, g ≠ f → v.feed g = s.feed g := fun g hg => (State.feed_setFeedRecord s f g _).trans (if_neg hg)
  refine ⟨fun hstill => ?_, fun skipped rest e l m ms hrose hq hnodup hskipped hl hwaits hms hoff hfits hend => ?_⟩
  · have hscan : (if (v.begin.budgetMoved s.available .feedPresent).rise then
        (v.begin.budgetMoved s.available .feedPresent).scan else v.begin.budgetMoved s.available .feedPresent) =
        v.begin.budgetMoved s.available .feedPresent := by
      split
      · next hr =>
        rw [hrise] at hr
        have hends : v.ScanEnds s.queue := hstill.resolve_left (of_decide_eq_true hr).ne'
        exact walk_of_scanEnds (h := v.begin.budgetMoved s.available .feedPresent) (by rw [hst]; exact hends) []
      · rfl
    obtain ⟨hposts, hr⟩ := posted_of_scan s _ _ hscan (by rw [hst]; exact ⟨rfl, rfl, rfl⟩) hanswers hloose hcheck
    rw [hst] at hr
    have hmoved : (v.begin.budgetMoved s.available .feedPresent).marks =
        movedMarks s (v.begin.budgetMoved s.available .feedPresent).settle .feedPresent := by
      rw [hmarks, movedMarks, hr.available]
    rw [hmoved] at hposts
    exact ⟨_, hexec, (hr.feed f).trans hfeed, fun g hg => (hr.feed g).trans (hotherFeeds g hg),
      hr.available ▸ available_le_present hnotpresent, hr.margin, hr.accounts, hr.chargedTotal, hr.committedTotal, hr.grantOrder,
      hr.keepsLeases, hr.keepsQueue, hr.keepsRails, hr.keepsTiers, hr.keepsOwners, hr.keepsService, hr.keepsClock, hposts⟩
  · let u0 := v.entryGranted e l m (skipped.map QueueEntry.handle)
    obtain ⟨hslot, -, -, -, -⟩ := liveLease_slot hl
    have hscan : (if (v.begin.budgetMoved s.available .feedPresent).rise then
        (v.begin.budgetMoved s.available .feedPresent).scan else v.begin.budgetMoved s.available .feedPresent) =
        { v.begin.budgetMoved s.available .feedPresent with
          st := u0
          marks := (v.begin.budgetMoved s.available .feedPresent).marks ++ [(l.tenant, .lease e.handle, .starting)] } := by
      rw [if_pos (by rw [hrise]; exact decide_eq_true hrose)]
      have hone := scan_grants_one (h := v.begin.budgetMoved s.available .feedPresent) (front := skipped) (rest := rest) (e := e)
        (l := l) (m := m) (ms := ms) (by rw [hst]; exact hq) (by rw [hst]; exact hnodup) (by rw [hst]; exact hskipped)
        (by rw [hst]; exact hl) hms (by rw [hst]; exact hoff) (by rw [hst]; exact hfits) (by rw [hst]; exact hend)
      rw [hone, hst]
    obtain ⟨hposts, hr⟩ := posted_of_scan s _ _ hscan (sameRings_entryGranted v e l m _) hanswers hloose hcheck
    have hmoved : (v.begin.budgetMoved s.available .feedPresent).marks =
        movedMarks s (v.begin.budgetMoved s.available .feedPresent).settle .feedPresent := by
      rw [hmarks, movedMarks, hr.available]
      rfl
    rw [hmoved] at hposts
    have hkeeps := onlyRings_entryGranted (v := v) (m := m) hq hnodup hl hr
    generalize (v.begin.budgetMoved s.available .feedPresent).settle = u at hexec hkeeps hposts
    obtain ⟨hu1, hu2, hu3, hu4, hu5, hu6, hu7, hu8, hu9, hu10, hu11, hu12, hu13, hu14, hu15, hu16, hu17⟩ := hkeeps
    exact ⟨u, hexec, (hu1 f).trans hfeed, fun g hg => (hu1 g).trans (hotherFeeds g hg), hu2, hu3, hu4, hu5, hu6, hu7, hu8, hu9,
      hu10, hu11, hu12, hu13, hu14, hu15, hu16, hu17.1, hu17.2, hposts⟩

end Sys2Proof.Machine

/-! PROOFS. CLAIM and ADJUST of one member (R35 to R51). -/

namespace Sys2Proof.Machine

/-! ### The judgement of a CLAIM of one explicit member (R35 to R44) -/

/-- The member that an explicit spec becomes at the values granted to it (R38). -/
def explicitMember (r : RailId) (tier voltage current stepDelay charge : Nat) : Member :=
  { rail := r, tier := tier, auto := false, voltage := voltage, current := current, stepDelay := stepDelay, charge := charge
    short := false }

theorem railSpecs_one (r : RailId) (k d v cur : Nat) :
    railSpecs [.explicit r.val k d v cur] = [(r, .explicit r.val k d v cur)] := by
  simp [railSpecs, MemberSpec.rail, numbered_val]

theorem membersWellFormed_one (r : RailId) (k d v cur : Nat) : membersWellFormed 1 [.explicit r.val k d v cur] = true := by
  simp [membersWellFormed, MemberSpec.rail, r.isLt]

theorem chargeOf_one (m : Member) : chargeOf [m] = m.charge := by simp [chargeOf]

section
variable {s : State} {t : TenantId} {c : CtxId} {a : ClaimArgs} {r : RailId} {i : SlotId} {k d v cur k' v' c' charge : Nat}

theorem choices?_one (hgrant : grantExplicit (s.tierList r) k v cur = some (k', v', c', charge)) (short : Bool) :
    s.choices? short r (.explicit r.val k d v cur) = [explicitMember r k' v' c' d charge] := by
  simp only [State.choices?, hgrant]
  rfl

theorem claimFault_one (hservice : s.service = .serving) (hcount : a.count = 1) (hspecs : a.specs = [.explicit r.val k d v cur])
    (hclass : a.cls ≤ (s.account t).maxClass) (hwait : a.wait ≤ 600) (hconf : (s.config r).configured = true)
    (howner : (s.owned r).owner = some t) (hfree : (s.rail r).lease = none) (hoff : (s.rail r).state = .off)
    (hgrant : grantExplicit (s.tierList r) k v cur = some (k', v', c', charge)) (hslot : s.freeSlot = some i) :
    s.claimFault t a = none := by
  have hmember : s.membersFault t 0 [(r, .explicit r.val k d v cur)] = none := by
    simp [State.membersFault, State.memberFault, hconf, howner, hfree, hoff, State.specValid, hgrant]
  simp [State.claimFault, hservice, hcount, hspecs, membersWellFormed_one, Nat.not_lt.mpr hclass, Nat.not_lt.mpr hwait,
    railSpecs_one, hmember, hslot, choices?_one hgrant]

theorem exec_claim_granted {members : List Member} (H : s.takenCommand t = some (c, .claim a)) (hfault : s.claimFault t a = none)
    (hslot : s.freeSlot = some i) (hspecs : a.specs = [.explicit r.val k d v cur])
    (hgrant : grantExplicit (s.tierList r) k v cur = some (k', v', c', charge))
    (houtcome : s.claimOutcome t a.noWait [[explicitMember r k' v' c' d charge]] = .granted members) :
    exec (.claim t) s = .next
      ((s.begin.grantClaim t a i members).answer c .granted .none (some (s.handleOf i)) (chargeOf members)).settle := by
  show Host.Outcome.next (claim t s) = _
  simp only [claim, H, State.claimBody, hfault, hslot, hspecs, railSpecs_one, List.map_cons, List.map_nil, choices?_one hgrant,
    houtcome]

theorem exec_claim_deferred {members : List Member} (H : s.takenCommand t = some (c, .claim a)) (hfault : s.claimFault t a = none)
    (hslot : s.freeSlot = some i) (hspecs : a.specs = [.explicit r.val k d v cur])
    (hgrant : grantExplicit (s.tierList r) k v cur = some (k', v', c', charge))
    (houtcome : s.claimOutcome t a.noWait [[explicitMember r k' v' c' d charge]] = .deferred members) :
    exec (.claim t) s = .next
      ((s.begin.deferClaim t a i members).answer c .deferred .none (some (s.handleOf i)) (chargeOf members)).settle := by
  show Host.Outcome.next (claim t s) = _
  simp only [claim, H, State.claimBody, hfault, hslot, hspecs, railSpecs_one, List.map_cons, List.map_nil, choices?_one hgrant,
    houtcome]

theorem claimOutcome_granted {m : Member} (hblock : s.anyBlocking = false) (hfits : s.fits t m.charge = true) (noWait : Bool) :
    s.claimOutcome t noWait [[m]] = .granted [m] := by
  simp [State.claimOutcome, hblock, greedy, hfits]

theorem claimOutcome_deferred {m : Member} (hnow : s.anyBlocking = true ∨ s.fits t m.charge = false)
    (hlater : s.neverFits t m.charge = false) (hroom : s.queue.length < 8) : s.claimOutcome t false [[m]] = .deferred [m] := by
  have hfirst : s.judgeFirst t false [m] = .deferred [m] := by
    simp [State.judgeFirst, chargeOf_one, hlater, Nat.not_le.mpr hroom]
  cases hblock : s.anyBlocking with
  | true => simp [State.claimOutcome, hblock, hfirst]
  | false =>
    have hfits : s.fits t m.charge = false := hnow.resolve_left (by rw [hblock]; exact Bool.false_ne_true)
    simp [State.claimOutcome, hblock, greedy, hfits, hfirst]

end

/-! ### The state after a CLAIM (R45, R46) -/

/-- The state after the grant of a CLAIM of one member, as one write of each part (R45). -/
def State.claimGranted (s : State) (i : SlotId) (l : Lease) (m : Member) : State :=
  { s with
    slots := (s.setLease i l).slots
    accounts := (s.charge l.tenant l.charge).accounts
    chargedTotal := s.chargedTotal + l.charge, committedTotal := s.committedTotal + l.charge
    grantOrder := s.grantOrder ++ [s.handleOf i]
    queue := s.queue.map QueueEntry.passed
    rails := (s.setRail m.rail { s.risingRail m with lease := some (s.handleOf i) }).rails }

theorem grantClaim_eq {s : State} {t : TenantId} {m : Member} (a : ClaimArgs) (i : SlotId) (hoff : (s.rail m.rail).state = .off) :
    s.begin.grantClaim t a i [m] =
      { s.begin with st := s.claimGranted i (newLease s.now t a [m] (.starting (.rising 0))) m } := by
  have hm : (newLease s.now t a [m] (.starting (.rising 0))).members[0]? = some m := rfl
  have hstate : ((s.setMembership m.rail (some (s.handleOf i))).rail m.rail).state = .off := by
    rw [State.setMembership, State.rail_setRail_same]
    exact hoff
  unfold Happening.grantClaim
  refine (raiseMember_eq hm (by exact hstate)).trans ?_
  have hrails : vset (s.setMembership m.rail (some (s.handleOf i))).rails m.rail
      ((s.setMembership m.rail (some (s.handleOf i))).risingRail m) =
      (s.setRail m.rail { s.risingRail m with lease := some (s.handleOf i) }).rails := by
    simp only [State.setMembership, State.setRail, State.risingRail, State.rail, vget_vset_same, vset_vset]
    rfl
  unfold State.claimGranted
  rw [← hrails]
  rfl

/-- The state after a CLAIM of one member is deferred, as one write of each part (R46). -/
def State.claimDeferred (s : State) (i : SlotId) (l : Lease) (m : Member) (deadline : Nat) : State :=
  { s with
    slots := (s.setLease i l).slots
    queue := s.queue ++ [{ handle := s.handleOf i, kind := .claim deadline 0 }]
    rails := (s.setMembership m.rail (some (s.handleOf i))).rails }

theorem deferClaim_eq (s : State) (t : TenantId) (a : ClaimArgs) (i : SlotId) (m : Member) :
    s.begin.deferClaim t a i [m] =
      { s.begin with
        st := s.claimDeferred i (newLease s.now t a [m] .waiting) m (s.now + 1000 * s.waitLimit a.wait) } := rfl

/-- Settles O12. -/
theorem claimOfOneMemberIsGranted : Obligations.ClaimOfOneMemberIsGranted := by
  intro s t c a r i k d v cur k' v' c' charge H hservice hcount hspecs hclass hwait hconf howner hfree hoff hgrant hslot hblock
    hfits
  let m := explicitMember r k' v' c' d charge
  let l := newLease s.now t a [m] (.starting (.rising 0))
  have hfault := claimFault_one hservice hcount hspecs hclass hwait hconf howner hfree hoff hgrant hslot
  have hexec := exec_claim_granted H.1 hfault hslot hspecs hgrant (claimOutcome_granted hblock hfits a.noWait)
  simp only [chargeOf_one, grantClaim_eq (m := explicitMember r k' v' c' d charge) a i hoff] at hexec
  obtain ⟨hfin, hr⟩ := answered s { s.begin with st := s.claimGranted i l m } t c _ H ⟨rfl, rfl, rfl⟩ rfl rfl
    (fun h => nomatch h) (fun h => nomatch h) .granted .none (some (s.handleOf i)) charge
  refine ⟨_, hexec, (hr.slot i).trans (State.slot_setSlot_same s i _),
    fun j hj => (hr.slot j).trans (keepsOtherSlots_setLease s i l j hj), hr.chargedTotal, hr.committedTotal, fun n => ?_,
    hr.grantOrder, hr.feeds, hr.margin, hr.queue, hr.passLimit, hr.defaultWait,
    (hr.rail r).trans (State.rail_setRail_same s r _), hr.faultRecord r, ⟨hr.railConfig, fun q hq => ⟨?_, hr.faultRecord q⟩⟩,
    hr.keepsTiers, hr.keepsOwners, hr.keepsService, hr.keepsClock, hfin⟩
  · refine (hr.account n).trans ((account_charge s t n charge).trans ?_)
    split
    · next hn => rw [hn]
    · rfl
  · exact (hr.rail q).trans ((State.rail_setRail s r q _).trans (if_neg hq))

/-- Settles O13. -/
theorem claimOfOneMemberIsDeferred : Obligations.ClaimOfOneMemberIsDeferred := by
  intro s t c a r i k d v cur k' v' c' charge H hservice hcount hspecs hclass hwait hconf howner hfree hoff hgrant hslot hnow
    hlater hnoWait hroom
  let m := explicitMember r k' v' c' d charge
  let l := newLease s.now t a [m] .waiting
  have hfault := claimFault_one hservice hcount hspecs hclass hwait hconf howner hfree hoff hgrant hslot
  have hexec := exec_claim_deferred H.1 hfault hslot hspecs hgrant
    (by rw [hnoWait]; exact claimOutcome_deferred hnow hlater hroom)
  simp only [chargeOf_one, deferClaim_eq] at hexec
  obtain ⟨hfin, hr⟩ := answered s { s.begin with st := s.claimDeferred i l m (s.now + 1000 * s.waitLimit a.wait) } t c _ H
    ⟨rfl, rfl, rfl⟩ rfl rfl (fun h => nomatch h) (fun h => nomatch h) .deferred .none (some (s.handleOf i)) charge
  refine ⟨_, hexec, (hr.slot i).trans (State.slot_setSlot_same s i _),
    fun j hj => (hr.slot j).trans (keepsOtherSlots_setLease s i l j hj), hr.keepsBudget, hr.queue, hr.passLimit, hr.defaultWait,
    (hr.rail r).trans (State.rail_setRail_same s r _), hr.faultRecord r, ⟨hr.railConfig, fun q hq => ⟨?_, hr.faultRecord q⟩⟩,
    hr.keepsTiers, hr.keepsOwners, hr.keepsService, hr.keepsClock, hfin⟩
  exact (hr.rail q).trans ((State.rail_setRail s r q _).trans (if_neg hq))

/-! ### The judgement of an ADJUST of one member (R48, R49) -/

/-- The change an ADJUST makes to the only member of its lease. -/
def soleChange (tier voltage current charge : Nat) : MemberChange :=
  { member := 0, tier := tier, voltage := voltage, current := current, charge := charge }

theorem applyChanges_sole {v : MemberChange} (hv : v.member = 0) (m : Member) : applyChanges [v] [m] = [v.apply m] := by
  simp [applyChanges, changedMember, hv]

section
variable {s : State} {t : TenantId} {c : CtxId} {w : Nat} {r : RailId} {l : Lease} {m : Member} {k d v cur v' c' charge : Nat}

theorem adjustFault_one (hservice : s.service = .serving) (hl : s.liveLease (handleOfWord w) = some l) (ht : l.tenant = t)
    (hactive : l.state = .active) (hms : l.members = [m]) (hm : m.rail = r)
    (hgrant : grantExplicit (s.tierList r) k v cur = some (k, v', c', charge)) :
    s.adjustFault t w 1 [.explicit r.val k d v cur] = .inr ((handleOfWord w).slot, l, [(k, v', c', charge)]) := by
  subst hm
  have hmatch : specsMatch 1 [.explicit m.rail.val k d v cur] l.members = true := by
    rw [hms]
    simp [specsMatch, MemberSpec.rail]
  have hjudged : List.zipWith s.adjustSpec l.members [.explicit m.rail.val k d v cur] = [some (k, v', c', charge)] := by
    rw [hms]
    simp [State.adjustSpec, hgrant]
  simp [State.adjustFault, hservice, hl, ht, hactive, hmatch, hjudged]

/-- An ADJUST of one member that changes it, at a charge that fits, is accepted (R48, R49). -/
theorem exec_adjust_one (H : s.takenCommand t = some (c, .adjust w 1 [.explicit r.val k d v cur])) (hservice : s.service = .serving)
    (hl : s.liveLease (handleOfWord w) = some l) (ht : l.tenant = t) (hactive : l.state = .active) (hms : l.members = [m])
    (hm : m.rail = r) (hgrant : grantExplicit (s.tierList r) k v cur = some (k, v', c', charge))
    (hchange : k ≠ m.tier ∨ v' ≠ m.voltage ∨ c' ≠ m.current)
    (hfits : l.charge < charge → s.fits t (charge - l.charge) = true) :
    exec (.adjust t) s = .next
      (((s.begin.acceptAdjust (handleOfWord w).slot l [soleChange k v' c' charge] charge).answer c .ok .none
        (some (handleOfWord w)) charge).settle) := by
  obtain ⟨-, -, hhandle, -, -⟩ := liveLease_slot hl
  have hchanges : memberChanges l.members [(k, v', c', charge)] = [soleChange k v' c' charge] := by
    have hsome : memberChange 0 m (k, v', c', charge) = some (soleChange k v' c' charge) := by
      refine if_neg fun hsame => ?_
      obtain ⟨hk, hv, hc⟩ := hsame
      exact hchange.elim (fun h => h hk.symm) fun h => h.elim (fun h => h hv.symm) fun h => h hc.symm
    rw [hms]
    simp [memberChanges, hsome]
  have hcharge : chargeOf (applyChanges [soleChange k v' c' charge] l.members) = charge := by
    rw [hms, applyChanges_sole rfl, chargeOf_one]
    rfl
  have hroom : ¬(l.charge < charge ∧ s.fits t (charge - l.charge) = false) := fun ⟨hraise, hno⟩ =>
    Bool.false_ne_true (hno.symm.trans (hfits hraise))
  show Host.Outcome.next (adjust t s) = _
  simp only [adjust, H, State.adjustBody, adjustFault_one hservice hl ht hactive hms hm hgrant, hchanges, hcharge,
    List.cons_ne_nil, if_false, if_neg hroom, hhandle]

end

/-- A happening that has come to a state and its markers, with no scan and nothing to free, finishes its command there. -/
theorem answered_of_eq {s v : State} {h : Happening} {marks : List (TenantId × Subject × Reason)} {t : TenantId} {c : CtxId}
    {cmd : Command} (hh : h = { s.begin with st := v, marks := marks }) (H : s.Holds t c cmd) (e : SameRings s v)
    (status : Status) (handle : Option Handle) (charge : Nat) :
    Finishes s (h.answer c status .none handle charge).settle t c status .none handle charge marks ∧
      OnlyRings v (h.answer c status .none handle charge).settle := by
  subst hh
  exact answered s { s.begin with st := v, marks := marks } t c cmd H e rfl rfl (fun k => nomatch k) (fun k => nomatch k) status
    .none handle charge

/-! ### The state after an ADJUST (R50, R51) -/

/-- The state after an accepted ADJUST of one member, as one write of each part. -/
def State.adjusted (s : State) (i : SlotId) (l : Lease) (raise : Nat) (r : RailId) (rail : Rail) (record : FaultRecord) : State :=
  { s with
    slots := (s.setLease i l).slots
    accounts := (s.charge l.tenant raise).accounts
    chargedTotal := s.chargedTotal + raise, committedTotal := s.committedTotal + raise
    rails := (s.setRail r rail).rails
    faults := (s.setFaultRecord r record).faults }

theorem setFaultRecord_faultRecord (s : State) (r : RailId) : (s.setFaultRecord r (s.faultRecord r)).faults = s.faults :=
  vset_vget s.faults r

theorem acceptAdjust_of_current {s : State} {i : SlotId} {l : Lease} {m : Member} {k c' charge : Nat} (hms : l.members = [m])
    (hcharge : l.charge ≤ charge) :
    s.begin.acceptAdjust i l [soleChange k m.voltage c' charge] charge =
      { s.begin with
        st := s.adjusted i
          { l with members := [{ m with tier := k, current := c', charge := charge }], charge := charge, count := l.count + 1 }
          (charge - l.charge) m.rail { s.rail m.rail with currentLimit := c' } (s.faultRecord m.rail)
        marks := [(l.tenant, .lease (s.handleOf i), .adjusted)] } := by
  have hslewed : slewed l.members [soleChange k m.voltage c' charge] = [] := by
    rw [hms]
    simp [slewed, soleChange]
  have happly : applyChanges [soleChange k m.voltage c' charge] l.members =
      [{ m with tier := k, current := c', charge := charge }] := by
    rw [hms, applyChanges_sole rfl]
    rfl
  have hport : ∀ v : State, v.adjustPorts l.members [soleChange k m.voltage c' charge] [] = v.setCurrent m.rail c' := by
    intro v
    rw [hms]
    rfl
  unfold Happening.acceptAdjust
  simp only [hslewed, if_true, hport, happly, Happening.creditFall, if_neg (Nat.not_lt.mpr hcharge)]
  unfold State.adjusted
  rw [setFaultRecord_faultRecord]
  rfl

theorem acceptAdjust_of_voltage {s : State} {i : SlotId} {l : Lease} {m : Member} {k v' c' charge : Nat} (hms : l.members = [m])
    (hv : v' ≠ m.voltage) (hon : (s.rail m.rail).state = .on) (hdrive : (s.rail m.rail).drive = .held m.voltage) :
    s.begin.acceptAdjust i l [soleChange k v' c' charge] charge =
      { s.begin with
        st := s.adjusted i
          { l with
            state := .adjusting { changes := [soleChange k v' c' charge], newCharge := charge, slewing := [0] }
            charge := max l.charge charge, count := l.count + 1 }
          (charge - l.charge) m.rail
          { s.rail m.rail with
            state := .slewing (s.now + (((m.voltage - v') + (v' - m.voltage)) + (s.config m.rail).rampRate - 1) /
              (s.config m.rail).rampRate + (s.config m.rail).allowance)
            drive := .moving m.voltage v' (s.config m.rail).rampRate s.now, currentLimit := c' }
          { s.faultRecord m.rail with stable := none }
        marks := [(l.tenant, .lease (s.handleOf i), .adjusting)] } := by
  have hslewed : slewed l.members [soleChange k v' c' charge] = [soleChange k v' c' charge] := by
    rw [hms]
    simp [slewed, soleChange, hv.symm]
  have hport : ∀ v : State, v.adjustPorts l.members [soleChange k v' c' charge] [soleChange k v' c' charge] =
      (v.setCurrent m.rail c').enterSlewing m.rail v' := by
    intro v
    rw [hms]
    rfl
  have hslew : ∀ v : State, (v.rail m.rail) = s.rail m.rail → v.now = s.now → v.config m.rail = s.config m.rail →
      v.faultRecord m.rail = s.faultRecord m.rail → (v.setCurrent m.rail c').enterSlewing m.rail v' =
        (v.setRail m.rail
          { s.rail m.rail with
            state := .slewing (s.now + (((m.voltage - v') + (v' - m.voltage)) + (s.config m.rail).rampRate - 1) /
              (s.config m.rail).rampRate + (s.config m.rail).allowance)
            drive := .moving m.voltage v' (s.config m.rail).rampRate s.now, currentLimit := c' }).setFaultRecord m.rail
          { s.faultRecord m.rail with stable := none } := by
    intro v hrail hnow hconfig hrecord
    have hstate : ((v.setCurrent m.rail c').rail m.rail) = { s.rail m.rail with currentLimit := c' } := by
      rw [State.setCurrent, State.rail_setRail_same, hrail]
    have hdeadline : (v.setCurrent m.rail c').now = s.now ∧ (v.setCurrent m.rail c').config m.rail = s.config m.rail :=
      ⟨hnow, hconfig⟩
    unfold State.enterSlewing
    simp only [hstate, hon, hdrive, hdeadline.1, hdeadline.2, Drive.target, ceilDiv, gap]
    rw [State.cancelStable, State.setCurrent]
    simp only [State.setRail, vset_vset]
    rw [← hrecord]
    rfl
  unfold Happening.acceptAdjust
  simp only [hslewed, List.cons_ne_nil, if_false, hport, Happening.map]
  rw [hslew (s.begin.st.charge l.tenant (charge - l.charge)) rfl rfl rfl rfl]
  rfl

section
variable {s u : State} {w : Nat} {l l' : Lease} {raise : Nat} {r : RailId} {rail : Rail} {record : FaultRecord}

/-- All that an accepted ADJUST of one member changes outside the rings. -/
theorem onlyRings_adjusted (hl : s.liveLease (handleOfWord w) = some l)
    (hr : OnlyRings (s.adjusted (handleOfWord w).slot l' raise r rail record) u) :
    u.slot (handleOfWord w).slot = { gen := (handleOfWord w).gen, lease := some l' } ∧
      KeepsOtherSlots s u (handleOfWord w).slot ∧ u.chargedTotal = s.chargedTotal + raise ∧
      u.committedTotal = s.committedTotal + raise ∧
      (∀ n, u.account n = if n = l'.tenant then { s.account l'.tenant with charged := (s.account l'.tenant).charged + raise }
        else s.account n) ∧
      u.grantOrder = s.grantOrder ∧ u.feeds = s.feeds ∧ u.margin = s.margin ∧ KeepsQueue s u ∧
      u.rail r = rail ∧ u.faultRecord r = record ∧ KeepsOtherRails s u r ∧ KeepsTiers s u ∧ KeepsOwners s u ∧
      KeepsService s u ∧ KeepsClock s u := by
  refine ⟨(hr.slot _).trans (slot_setLease_of_liveLease hl l'),
    fun j hj => (hr.slot j).trans (keepsOtherSlots_setLease s _ l' j hj), hr.chargedTotal, hr.committedTotal, fun n => ?_,
    hr.grantOrder, hr.feeds, hr.margin, hr.keepsQueue, (hr.rail r).trans (State.rail_setRail_same s r rail),
    (hr.faultRecord r).trans (State.faultRecord_setFaultRecord_same s r record), ⟨hr.railConfig, fun q hq => ⟨?_, ?_⟩⟩,
    hr.keepsTiers, hr.keepsOwners, hr.keepsService, hr.keepsClock⟩
  · refine (hr.account n).trans ((account_charge s l'.tenant n raise).trans ?_)
    split
    · next hn => rw [hn]
    · rfl
  · exact (hr.rail q).trans ((State.rail_setRail s r q rail).trans (if_neg hq))
  · exact (hr.faultRecord q).trans ((State.faultRecord_setFaultRecord s r q record).trans (if_neg hq))

end

/-- Settles O14. -/
theorem adjustOfCurrentIsImmediate : Obligations.AdjustOfCurrentIsImmediate := by
  intro s t c w r l m k d v cur c' charge H hservice hl ht hactive hms hm hgrant hchange hcharge hfits
  subst hm ht
  obtain ⟨-, -, hhandle, -, -⟩ := liveLease_slot hl
  have hexec := exec_adjust_one H.1 hservice hl rfl hactive hms rfl hgrant (hchange.imp_right Or.inr) hfits
  have haccept := acceptAdjust_of_current (s := s) (i := (handleOfWord w).slot) (k := k) (c' := c') hms hcharge
  rw [hhandle] at haccept
  obtain ⟨hfin, hr⟩ := answered_of_eq haccept H ⟨rfl, rfl, rfl⟩ .ok (some (handleOfWord w)) charge
  obtain ⟨h1, h2, h3, h4, h5, h6, h7, h8, h9, h10, h11, h12, h13, h14, h15, h16⟩ := onlyRings_adjusted hl hr
  exact ⟨_, hexec, h1, h2, h3, h4, h5, h6, h7, h8, h9, h10, h11, h12, h13, h14, h15, h16, hfin⟩

/-- Settles O15. -/
theorem adjustOfVoltageSlews : Obligations.AdjustOfVoltageSlews := by
  intro s t c w r l m k d v cur v' c' charge H hservice hl ht hactive hms hm hon hdrive hgrant hv hfits
  subst hm ht
  obtain ⟨-, -, hhandle, -, -⟩ := liveLease_slot hl
  have hexec := exec_adjust_one H.1 hservice hl rfl hactive hms rfl hgrant (Or.inr (Or.inl hv)) hfits
  have haccept := acceptAdjust_of_voltage (s := s) (i := (handleOfWord w).slot) (k := k) (c' := c') (charge := charge) hms hv hon hdrive
  rw [hhandle] at haccept
  obtain ⟨hfin, hr⟩ := answered_of_eq haccept H ⟨rfl, rfl, rfl⟩ .ok (some (handleOfWord w)) charge
  obtain ⟨h1, h2, h3, h4, h5, h6, h7, h8, h9, h10, h11, h12, h13, h14, h15, h16⟩ := onlyRings_adjusted hl hr
  exact ⟨_, hexec, h1, h2, h3, h4, h5, h6, h7, h8, h9, h10, h11, h12, h13, h14, h15, h16, hfin⟩

end Sys2Proof.Machine

/-! PROOFS. Ends of leases that wait (R12, R21 to R23, R87), and the start sequence (R105 to R107, R132). -/

namespace Sys2Proof.Machine

/-! ### A slot whose marker is posted is not freed (R18) -/

theorem addMarker_any_of_any {x : Subject} {q : List OutEntry} (y : Subject) (reason : Reason)
    (h : q.any (OutEntry.isMarker x) = true) : (addMarker y reason q).any (OutEntry.isMarker x) = true := by
  obtain ⟨e, he, hx⟩ := List.any_eq_true.mp h
  unfold addMarker
  split
  · rw [List.any_eq_true]
    by_cases hy : e.isMarker y = true
    · have hsame : y = x := by
        cases e with
        | completion c => cases hx
        | marker z r => exact (beq_iff_eq.mp hy).symm.trans (beq_iff_eq.mp hx)
      refine ⟨.marker y reason, List.mem_map.mpr ⟨e, he, if_pos hy⟩, ?_⟩
      rw [hsame]
      exact beq_self_eq_true x
    · exact ⟨e, List.mem_map.mpr ⟨e, he, if_neg hy⟩, hx⟩
  · rw [List.any_append, h, Bool.true_or]

theorem withMarks_any {n : TenantId} {x : Subject} {reason : Reason} {marks : List (TenantId × Subject × Reason)}
    (h : (n, x, reason) ∈ marks) (q : List OutEntry) : (withMarks n marks q).any (OutEntry.isMarker x) = true := by
  have hkeep : ∀ (ms : List (TenantId × Subject × Reason)) (q : List OutEntry), q.any (OutEntry.isMarker x) = true →
      (withMarks n ms q).any (OutEntry.isMarker x) = true := by
    intro ms
    induction ms with
    | nil => exact fun q hq => hq
    | cons m ms ih =>
      intro q hq
      rw [withMarks_cons]
      split
      · exact ih _ (addMarker_any_of_any _ _ hq)
      · exact ih _ hq
  induction marks generalizing q with
  | nil => cases h
  | cons m ms ih =>
    rw [withMarks_cons]
    obtain rfl | h := List.mem_cons.mp h
    · rw [if_pos rfl]
      exact hkeep ms _ (addMarker_any x reason q)
    · exact ih h _

theorem marked_of_withMarks {u : State} {n : TenantId} {x : Handle} {reason : Reason} {y : Tenant}
    {marks : List (TenantId × Subject × Reason)} (hu : u.tenant n = y.withMarks n marks) (hh : y.hears = true)
    (hm : (n, .lease x, reason) ∈ marks) : u.marked x = true := by
  refine marked_of_any u n x ?_
  rw [hu, Tenant.withMarks, if_pos hh]
  exact withMarks_any hm y.outbound

theorem freeEnded_of_all_marked {u : State} {loose : List SlotId} (h : ∀ i ∈ loose, u.marked (u.handleOf i) = true) :
    loose.foldl State.freeEnded u = u := by
  induction loose with
  | nil => rfl
  | cons i loose ih =>
    rw [List.foldl_cons, freeEnded_of_marked u i (h i List.mem_cons_self)]
    exact ih fun j hj => h j (List.mem_cons_of_mem _ hj)

/-- Each slot that a happening may free has a marker of its lease in the happening, for a tenant whose queue takes it. -/
def Happening.MarksLoose (h : Happening) (s : State) : Prop :=
  ∀ i ∈ h.loose, ∃ n reason, (n, .lease (h.st.handleOf i), reason) ∈ h.marks ∧ (s.tenant n).hears = true

/-- No drain runs and no teardown where one may end. -/
theorem steady_of_sameRings {s v : State} (hs : s.Steady) (e : SameRings s v) (hv : v.service = s.service) :
    v.service.isDraining = false ∧ ∀ n, (v.tenant n).state ≠ .closing :=
  ⟨by rw [hv]; exact hs.1, fun n => by rw [e.tenant]; exact hs.2 n⟩

/-- A happening without commands, outside drains and teardowns, whose loose slots are marked: it comes to its state with its
markers posted. -/
theorem posted_of_steady {s v : State} {h : Happening} {marks : List (TenantId × Subject × Reason)} (hst : h.st = v)
    (hm : h.marks = marks) (e : SameRings s v) (hv : v.service = s.service) (ha : h.answers = [])
    (hr : h.rise = true → v.queue = []) (hs : s.Steady) (hl : h.MarksLoose s) :
    Posts s h.settle marks ∧ OnlyRings v h.settle := by
  subst hst hm
  have hflush : h.settle = h.loose.foldl State.freeEnded (h.st.postAll h.marks) := by
    rw [settle_eq_flush h hr fun _ => steady_of_sameRings hs e hv]
    simp only [Happening.flush, ha, List.foldl_nil, State.postAll]
  have hr' := onlyRings_postAll h.st h.marks
  have hfree : h.loose.foldl State.freeEnded (h.st.postAll h.marks) = h.st.postAll h.marks := by
    refine freeEnded_of_all_marked fun i hi => ?_
    obtain ⟨n, reason, hmark, hh⟩ := hl i hi
    rw [← e.tenant] at hh
    have hhandle : (h.st.postAll h.marks).handleOf i = h.st.handleOf i := by
      rw [State.handleOf, State.handleOf, hr'.slot]
    rw [hhandle]
    exact marked_of_withMarks (postAll_tenant h.st h.marks n) hh hmark
  rw [hflush, hfree]
  exact ⟨e.posts (posts_postAll _ _), hr'⟩

/-- The same for a happening in which a command finishes. -/
theorem answered_of_steady {s v : State} {h : Happening} {marks : List (TenantId × Subject × Reason)} {t : TenantId} {c : CtxId}
    {cmd : Command} (H : s.Holds t c cmd) (hst : h.st = v) (hm : h.marks = marks) (e : SameRings s v)
    (hv : v.service = s.service) (ha : h.answers = []) (hr : h.rise = true → v.queue = []) (hs : s.Steady) (hl : h.MarksLoose s)
    (status : Status) (detail : Detail) (handle : Option Handle) (charge : Nat) :
    Finishes s (h.answer c status detail handle charge).settle t c status detail handle charge marks ∧
      OnlyRings v (h.answer c status detail handle charge).settle := by
  subst hst hm
  obtain ⟨x, hx, ht, -, -⟩ := takenCommand_context H.1
  subst ht
  have hx' : h.st.context c = some x := by rw [e.context]; exact hx
  have hh' : (h.st.tenant x.tenant).hears = true := by rw [e.tenant]; exact H.2
  have hfin := finishes_finish h.st c x hx' hh' status detail handle charge h.marks
  have hr' := onlyRings_finish h.st c x (completionOf c x status detail handle charge) h.marks
  have hflush := settle_answer h c x hx' ha hr (fun _ => steady_of_sameRings hs e hv) status detail handle charge
  have hfree : h.loose.foldl State.freeEnded (h.st.finish c x (completionOf c x status detail handle charge) h.marks) =
      h.st.finish c x (completionOf c x status detail handle charge) h.marks := by
    refine freeEnded_of_all_marked fun i hi => ?_
    obtain ⟨n, reason, hmark, hn⟩ := hl i hi
    have hhandle : (h.st.finish c x (completionOf c x status detail handle charge) h.marks).handleOf i = h.st.handleOf i := by
      rw [State.handleOf, State.handleOf, hr'.slot]
    rw [hhandle]
    have hqueues := hfin
    obtain ⟨_, -, -, -, hself, hothers, -⟩ := hqueues
    by_cases hnt : n = x.tenant
    · subst hnt
      refine marked_of_any _ x.tenant _ ?_
      rw [hself]
      exact withMarks_any hmark _
    · exact marked_of_withMarks (hothers n hnt) (by rw [e.tenant]; exact hn) hmark
  rw [hflush, hfree]
  exact ⟨e.finishes hfin, hr'⟩

/-! ### The end of a lease (R12, R13) -/

/-- The state after a lease has ended, once it has given back what it held: its record, and its rails' lease handles. -/
def State.leaseEnded (s : State) (i : SlotId) (l : Lease) (reason : EndReason) : State :=
  { s with
    slots := (s.setLease i { l with state := .ended reason, term := none, count := l.count + 1 }).slots
    rails := (s.setMemberships l.members none).rails }

theorem endLease_eq (h : Happening) (i : SlotId) (l : Lease) (reason : EndReason) :
    h.endLease i l reason =
      { h.giveBack i l with
        st := (h.giveBack i l).st.leaseEnded i l reason, check := true, loose := (h.giveBack i l).loose ++ [i]
        marks := (h.giveBack i l).marks ++ [(l.tenant, .lease ((h.giveBack i l).st.handleOf i), .ended)] } := by
  obtain ⟨v, hv, -⟩ := setMemberships_rails (h.giveBack i l).st l.members none
  unfold Happening.endLease State.leaseEnded
  simp only [Happening.map, hv]
  rfl

theorem rail_leaseEnded (s : State) (i : SlotId) (l : Lease) (reason : EndReason) (r : RailId) :
    (s.leaseEnded i l reason).rail r = if r ∈ l.members.map Member.rail then { s.rail r with lease := none } else s.rail r := by
  obtain ⟨v, hv, hr⟩ := setMemberships_rails s l.members none
  refine Eq.trans ?_ (hr r)
  show vget (s.setMemberships l.members none).rails r = _
  rw [hv]

/-- The end of a lease that waits: its entry leaves the queue, and no total changes. -/
theorem endLease_of_waits {s : State} {x : Handle} {l : Lease} (hl : s.liveLease x = some l)
    (hwaits : l.state = .waiting ∨ l.state = .suspended) (reason : EndReason) :
    s.begin.endLease x.slot l reason =
      { s.begin with
        st := (s.removeEntry x).leaseEnded x.slot l reason, check := true, loose := [x.slot]
        marks := [(l.tenant, .lease x, .ended)] } := by
  obtain ⟨-, -, hhandle, -, -⟩ := liveLease_slot hl
  have hback : s.begin.giveBack x.slot l = { s.begin with st := s.removeEntry x } := by
    unfold Happening.giveBack
    obtain hs | hs := hwaits <;> simp only [hs, Happening.map, begin_st, hhandle]
  have hmark : (s.removeEntry x).handleOf x.slot = x := hhandle
  rw [endLease_eq, hback]
  simp only [hmark]
  rfl

section
variable {s u : State} {x : Handle} {l : Lease} {reason : EndReason}

/-- All that the end of a waiting lease changes outside the rings. -/
theorem onlyRings_waiting_ended (hl : s.liveLease x = some l) (hr : OnlyRings ((s.removeEntry x).leaseEnded x.slot l reason) u) :
    u.slot x.slot = { gen := x.gen, lease := some { l with state := .ended reason, term := none, count := l.count + 1 } } ∧
      KeepsOtherSlots s u x.slot ∧ KeepsBudget s u ∧ u.queue = s.queue.filter (fun e => e.handle ≠ x) ∧
      u.passLimit = s.passLimit ∧ u.defaultWait = s.defaultWait ∧
      (∀ r, u.rail r = if r ∈ l.members.map Member.rail then { s.rail r with lease := none } else s.rail r) ∧
      u.railConfig = s.railConfig ∧ u.faults = s.faults ∧ KeepsTiers s u ∧ KeepsOwners s u ∧ KeepsService s u ∧
      KeepsClock s u :=
  ⟨(hr.slot _).trans (slot_setLease_of_liveLease hl _), fun j hj => (hr.slot j).trans (keepsOtherSlots_setLease s _ _ j hj),
    hr.keepsBudget, hr.queue, hr.passLimit, hr.defaultWait, fun r => (hr.rail r).trans (rail_leaseEnded _ _ l reason r),
    hr.railConfig, hr.faults, hr.keepsTiers, hr.keepsOwners, hr.keepsService, hr.keepsClock⟩

/-- The marker of its end holds the slot of the only lease that a happening ends. -/
theorem marksLoose_one {h : Happening} (hloose : h.loose = [x.slot]) (hhandle : h.st.handleOf x.slot = x)
    (hmarks : (l.tenant, .lease x, .ended) ∈ h.marks) (hh : (s.tenant l.tenant).hears = true) : h.MarksLoose s := by
  intro i hi
  rw [hloose, List.mem_singleton] at hi
  rw [hi, hhandle]
  exact ⟨l.tenant, .ended, hmarks, hh⟩

theorem handleOf_leaseEnded (s : State) (i : SlotId) (l : Lease) (reason : EndReason) :
    (s.leaseEnded i l reason).handleOf i = s.handleOf i := by
  have hslot : (s.leaseEnded i l reason).slot i =
      { s.slot i with lease := some { l with state := .ended reason, term := none, count := l.count + 1 } } :=
    (slot_setLease s i i _).trans (if_pos rfl)
  rw [State.handleOf, State.handleOf, hslot]

end

/-! ### RELEASE and REVOKE (R22, R23) -/

/-- The lease engine's answer to a RELEASE by the lease's tenant, or to a REVOKE (R22, R23). -/
theorem exec_giveUp {s : State} {i : Instr} {t : TenantId} {c : CtxId} {cmd : Command} {w : Nat} {l : Lease} {cause : StopCause}
    (hi : (i = .release t ∧ cmd = .release w ∧ cause = .released ∧ l.tenant = t) ∨
      (i = .revoke ∧ cmd = .revoke w ∧ cause = .revoked ∧ t = admin)) (H : s.takenCommand t = some (c, cmd))
    (hl : s.liveLease (handleOfWord w) = some l) (hstop : l.stop? = none) :
    exec i s = .next ((s.begin.stopCause (handleOfWord w).slot l cause).reply c .ok).settle := by
  have hgive : s.giveUp c (handleOfWord w).slot l cause =
      ((s.begin.stopCause (handleOfWord w).slot l cause).reply c .ok).settle := by
    unfold State.giveUp
    split
    · next stop hs => rw [Lease.stop?, hs] at hstop; cases hstop
    · rfl
  obtain ⟨rfl, rfl, rfl, ht⟩ | ⟨rfl, rfl, rfl, rfl⟩ := hi
  · show Host.Outcome.next (release t s) = _
    simp only [release, H, State.releaseBody, hl, ht, ne_eq, not_true_eq_false, if_false, hgive]
  · show Host.Outcome.next (revoke s) = _
    simp only [revoke, H, State.revokeBody, hl, hgive]

/-- Settles O16: the marker of its end keeps the lease's slot, and with nothing to end the happening comes to its queues. -/
theorem releaseAndRevokeEndWaitingLeases : Obligations.ReleaseAndRevokeEndWaitingLeases := by
  intro s i t c cmd w l reason hi H hsteady hl hwaits hh
  obtain ⟨-, -, hhandle, -, -⟩ := liveLease_slot hl
  have hend := endLease_of_waits hl hwaits reason
  have hexec : exec i s = .next ((s.begin.endLease (handleOfWord w).slot l reason).reply c .ok).settle := by
    have hstop : l.stop? = none := by
      unfold Lease.stop?
      obtain hs | hs := hwaits <;> rw [hs]
    have hcause : ∀ cause, s.begin.stopCause (handleOfWord w).slot l cause =
        s.begin.endLease (handleOfWord w).slot l cause.endReason := by
      intro cause
      unfold Happening.stopCause
      obtain hs | hs := hwaits <;> simp only [hs]
    obtain ⟨h1, h2, rfl, h4⟩ | ⟨h1, h2, rfl, h4⟩ := hi
    · rw [exec_giveUp (cause := .released) (Or.inl ⟨h1, h2, rfl, h4⟩) H.1 hl hstop, hcause]
      rfl
    · rw [exec_giveUp (cause := .revoked) (Or.inr ⟨h1, h2, rfl, h4⟩) H.1 hl hstop, hcause]
      rfl
  obtain ⟨hfin, hr⟩ := answered_of_steady H (congrArg Happening.st hend) (congrArg Happening.marks hend) ⟨rfl, rfl, rfl⟩ rfl
    (congrArg Happening.answers hend) (fun h => by rw [hend] at h; cases h) hsteady
    (marksLoose_one (congrArg Happening.loose hend) (by rw [hend]; exact (handleOf_leaseEnded _ _ l reason).trans hhandle)
      (by rw [hend]; exact List.mem_singleton_self _) hh) .ok .none none 0
  obtain ⟨h1, h2, h3, h4, h5, h6, h7, h8, h9, h10, h11, h12, h13⟩ := onlyRings_waiting_ended hl hr
  exact ⟨_, hexec, h1, h2, h3, h4, h5, h6, h7, h8, h9, h10, h11, h12, h13, hfin⟩

/-! ### LAPSE and WAIT_DEADLINE (R21, R87) -/

theorem exec_lapse {s : State} {x : Handle} {l : Lease} {term : Term} (hl : s.liveLease x = some l) (ht : l.term = some term) :
    exec (.lapse x) s = .next (s.atDeadline term.deadline (s.begin.stopCause x.slot l .lapsed).settle) := by
  show Host.Outcome.next (lapse x s) = _
  simp only [lapse, hl, ht]

theorem waitDeadlineOf_eq {s : State} {x : Handle} {d n : Nat}
    (h : s.queue.find? (fun e => e.handle = x) = some { handle := x, kind := .claim d n }) : s.waitDeadlineOf x = some d := by
  rw [State.waitDeadlineOf, h]
  rfl

theorem exec_waitDeadline {s : State} {x : Handle} {l : Lease} {d : Nat} (hl : s.liveLease x = some l)
    (hd : s.waitDeadlineOf x = some d) (hw : l.state = .waiting) :
    exec (.waitDeadline x) s = .next (s.atDeadline d (s.begin.endLease x.slot l .waitExpired).settle) := by
  show Host.Outcome.next (waitDeadline x s) = _
  simp only [waitDeadline, hl, hd, if_pos hw]

/-- Settles O19: at its deadline each row ends the lease; before it, and with no term, it is not taken. -/
theorem deadlinesEndWaitingLeases : Obligations.DeadlinesEndWaitingLeases := by
  intro s x l hl
  obtain ⟨-, -, hhandle, -, -⟩ := liveLease_slot hl
  refine ⟨fun hnone => ?_, fun n d ht hlt => ?_, fun d n hentry hlt => ?_, fun i d reason hi hle hsteady hh => ?_⟩
  · show Host.Outcome.next (lapse x s) = _
    simp only [lapse, hl, hnone]
  · rw [exec_lapse hl ht, State.atDeadline_of_lt _ hlt]
  · show Host.Outcome.next (waitDeadline x s) = _
    simp only [waitDeadline, waitDeadlineOf_eq hentry, hl, State.atDeadline_of_lt _ hlt, ite_self]
  · have hwaits : l.state = .waiting ∨ l.state = .suspended := by
      obtain ⟨-, -, -, h⟩ | ⟨-, -, h, -⟩ := hi
      · exact h
      · exact Or.inl h
    have hend := endLease_of_waits hl hwaits reason
    have hexec : exec i s = .next (s.begin.endLease x.slot l reason).settle := by
      obtain ⟨rfl, rfl, ⟨n, ht⟩, -⟩ | ⟨rfl, rfl, hw, n, hentry⟩ := hi
      · rw [exec_lapse hl ht, State.atDeadline_of_le _ hle]
        unfold Happening.stopCause
        obtain hs | hs := hwaits <;> simp only [hs, StopCause.endReason]
      · rw [exec_waitDeadline hl (waitDeadlineOf_eq hentry) hw, State.atDeadline_of_le _ hle]
    obtain ⟨hposts, hr⟩ := posted_of_steady (s := s) (congrArg Happening.st hend) (congrArg Happening.marks hend) ⟨rfl, rfl, rfl⟩ rfl
      (congrArg Happening.answers hend) (fun h => by rw [hend] at h; cases h) hsteady
      (marksLoose_one (congrArg Happening.loose hend) (by rw [hend]; exact (handleOf_leaseEnded _ _ l reason).trans hhandle)
        (by rw [hend]; exact List.mem_singleton_self _) hh)
    obtain ⟨h1, h2, h3, h4, h5, h6, h7, h8, h9, h10, h11, h12, h13⟩ := onlyRings_waiting_ended hl hr
    exact ⟨_, hexec, h1, h2, h3, h4, h5, h6, h7, h8, h9, h10, h11, h12, h13, hposts⟩

end Sys2Proof.Machine

/-! PROOFS. The rails' own rows: the start sequence (R99, R100, R105 to R107, R132), the end of a slew (R110), and the bottom of a
fall for a rail in no lease (R102, R127 to R129). -/

namespace Sys2Proof.Machine

/-! ### One lease, one rail and the totals written -/

/-- The charged totals, the committed total and the grant order list. -/
structure Ledger where
  accounts  : Vector Account 4
  charged   : Nat
  committed : Nat
  order     : List Handle

def State.ledger (s : State) : Ledger :=
  { accounts := s.accounts, charged := s.chargedTotal, committed := s.committedTotal, order := s.grantOrder }

/-- A state with one lease's record, one rail's live state and fault record, and the ledger written: what a happening at one rail
comes to. -/
def State.rewritten (s : State) (i : SlotId) (l : Lease) (r : RailId) (rail : Rail) (record : FaultRecord) (k : Ledger) : State :=
  { s with
    slots := (s.setLease i l).slots, rails := (s.setRail r rail).rails, faults := (s.setFaultRecord r record).faults
    accounts := k.accounts, chargedTotal := k.charged, committedTotal := k.committed, grantOrder := k.order }

/-- The parts of the state that no happening at one rail changes. -/
structure KeepsSetting (s u : State) : Prop where
  feeds : u.feeds = s.feeds
  margin : u.margin = s.margin
  queue : KeepsQueue s u
  tiers : KeepsTiers s u
  owners : KeepsOwners s u
  service : KeepsService s u
  clock : KeepsClock s u

section
variable {s u : State} {x : Handle} {l l' : Lease} {r : RailId} {rail : Rail} {record : FaultRecord} {k : Ledger}

theorem rewritten_slot (hl : s.liveLease x = some l) (hr : OnlyRings (s.rewritten x.slot l' r rail record k) u) :
    u.slot x.slot = { gen := x.gen, lease := some l' } ∧ KeepsOtherSlots s u x.slot :=
  ⟨(hr.slot _).trans (slot_setLease_of_liveLease hl l'), fun j hj => (hr.slot j).trans (keepsOtherSlots_setLease s _ l' j hj)⟩

theorem rewritten_rail {i : SlotId} (hr : OnlyRings (s.rewritten i l' r rail record k) u) :
    u.rail r = rail ∧ u.faultRecord r = record ∧ KeepsOtherRails s u r :=
  ⟨(hr.rail r).trans (State.rail_setRail_same s r rail),
    (hr.faultRecord r).trans (State.faultRecord_setFaultRecord_same s r record), hr.railConfig, fun q hq =>
      ⟨(hr.rail q).trans ((State.rail_setRail s r q rail).trans (if_neg hq)),
        (hr.faultRecord q).trans ((State.faultRecord_setFaultRecord s r q record).trans (if_neg hq))⟩⟩

theorem rewritten_setting {i : SlotId} (hr : OnlyRings (s.rewritten i l' r rail record k) u) : KeepsSetting s u :=
  ⟨hr.feeds, hr.margin, hr.keepsQueue, hr.keepsTiers, hr.keepsOwners, hr.keepsService, hr.keepsClock⟩

theorem rewritten_budget {i : SlotId} (hr : OnlyRings (s.rewritten i l' r rail record s.ledger) u) : KeepsBudget s u :=
  ⟨hr.feeds, hr.margin, hr.accounts, hr.chargedTotal, hr.committedTotal, hr.grantOrder⟩

end

/-- A happening that has come to a state and its markers, with no scan and nothing to free or to end. -/
theorem posted_of_eq {s v : State} {h : Happening} {marks : List (TenantId × Subject × Reason)}
    (hh : h = { s.begin with st := v, marks := marks }) (e : SameRings s v) : Posts s h.settle marks ∧ OnlyRings v h.settle := by
  subst hh
  exact posted s { s.begin with st := v, marks := marks } e rfl rfl (fun k => nomatch k) (fun k => nomatch k)

/-- The same where available budget or quota room may have risen: no entry is queued then. -/
theorem posted_of_rise {s v : State} {h : Happening} {marks : List (TenantId × Subject × Reason)} {b : Bool}
    (hh : h = { s.begin with st := v, marks := marks, rise := b }) (e : SameRings s v) (hq : b = true → v.queue = []) :
    Posts s h.settle marks ∧ OnlyRings v h.settle := by
  subst hh
  exact posted s { s.begin with st := v, marks := marks, rise := b } e rfl rfl hq (fun k => nomatch k)

theorem Posts.keepsRings {s u : State} (h : Posts s u []) : KeepsRings s u := by
  obtain ⟨htenants, hpool, hlast⟩ := h
  refine ⟨vget_ext fun n => ?_, hpool, hlast⟩
  exact (htenants n).trans (Tenant.withMarks_nil _ n)

/-- A live lease's rail leads to it (R98). -/
theorem leaseOfRail_eq {s : State} {r : RailId} {x : Handle} {l : Lease} (hr : (s.rail r).lease = some x)
    (hl : s.liveLease x = some l) : s.leaseOfRail r = some (x.slot, l) := by
  simp only [State.leaseOfRail, hr, hl, Option.map_some]

theorem leaseOfRail_none {s : State} {r : RailId} (hr : (s.rail r).lease = none) : s.leaseOfRail r = none := by
  simp only [State.leaseOfRail, hr]

/-! ### BACKOFF_DEADLINE and STABLE_DEADLINE (R129, R132) -/

theorem exec_backoffDeadline {s : State} {x : Handle} {l : Lease} {d : Nat} (hl : s.liveLease x = some l)
    (hs : l.state = .retryWait d) :
    exec (.backoffDeadline x) s = .next (s.atDeadline d (s.begin.restart x.slot l).settle) := by
  show Host.Outcome.next (backoffDeadline x s) = _
  simp only [backoffDeadline, hl, hs]

theorem exec_stableDeadline {s : State} {r : RailId} {d : Nat} (h : (s.faultRecord r).stable = some d) :
    exec (.stableDeadline r) s =
      .next (s.atDeadline d (s.setFaultRecord r { s.faultRecord r with count := 0, stable := none })) := by
  show Host.Outcome.next (stableDeadline r s) = _
  simp only [stableDeadline, h]

/-- A write of a lease's record and of one rail's live state, with the rail's fault record as it was. -/
theorem rewritten_eq_setRail (s : State) (i : SlotId) (l : Lease) (r : RailId) (rail : Rail) :
    (s.setLease i l).setRail r rail = s.rewritten i l r rail (s.faultRecord r) s.ledger := by
  unfold State.rewritten
  rw [setFaultRecord_faultRecord]
  rfl

theorem restart_eq {s : State} {x : Handle} {l : Lease} {m : Member} {ms : List Member} (hl : s.liveLease x = some l)
    (hms : l.members = m :: ms) (hoff : (s.rail m.rail).state = .off) :
    s.begin.restart x.slot l =
      { s.begin with
        st := s.rewritten x.slot { l with state := .starting (.rising 0), count := l.count + 1 } m.rail (s.risingRail m)
          (s.faultRecord m.rail) s.ledger
        marks := [(l.tenant, .lease x, .starting)] } := by
  obtain ⟨-, -, hhandle, -, -⟩ := liveLease_slot hl
  have hm : l.members[0]? = some m := by rw [hms]; rfl
  rw [Happening.restart, raiseMember_eq hm (by exact hoff), ← rewritten_eq_setRail]
  simp only [Happening.changeLease, Happening.map, Happening.mark, Happening.putLease, begin_st, hhandle]
  rfl

/-- Settles O26. -/
theorem retryDeadlinesAct : Obligations.RetryDeadlinesAct := by
  intro s d
  refine ⟨fun x l hl hs => ⟨fun hlt => ?_, fun m rest hle hms hoff => ?_⟩, fun r hr => ⟨fun hlt => ?_, fun hle => ?_⟩⟩
  · rw [exec_backoffDeadline hl hs, State.atDeadline_of_lt _ hlt]
  · have hexec := exec_backoffDeadline hl hs
    rw [State.atDeadline_of_le _ hle] at hexec
    obtain ⟨hposts, hr⟩ := posted_of_eq (restart_eq hl hms hoff) ⟨rfl, rfl, rfl⟩
    obtain ⟨hslot, hothers⟩ := rewritten_slot hl hr
    obtain ⟨hrail, hrecord, hrails⟩ := rewritten_rail hr
    have hset := rewritten_setting hr
    exact ⟨_, hexec, hslot, hothers, hrail, hrecord, hrails, rewritten_budget hr, hset.queue, hset.tiers, hset.owners, hset.service,
      hset.clock, hposts⟩
  · rw [exec_stableDeadline hr, State.atDeadline_of_lt _ hlt]
  · rw [exec_stableDeadline hr, State.atDeadline_of_le _ hle]

/-! ### PG_RISE and STEP_DELAY_END (R99, R106, R107) -/

/-- A rail that has reached ON (R96, R99). -/
def State.onRail (s : State) (r : RailId) : Rail := { s.rail r with state := .on, drive := .held (s.rail r).drive.target }

/-- The fault record of a rail that has reached ON: its stable deadline runs (R129). -/
def State.onRecord (s : State) (r : RailId) : FaultRecord := { s.faultRecord r with stable := some (s.now + 2000) }

theorem enterOn_eq (s : State) (r : RailId) :
    s.enterOn r = (s.setRail r (s.onRail r)).setFaultRecord r (s.onRecord r) := rfl

section
variable {s : State} {x : Handle} {l : Lease} {k : Nat} {r : RailId} {m n : Member}

theorem exec_pgRise {d : Nat} (h : (s.rail r).state = .rising d) :
    exec (.pgRise r) s = .next ((s.begin.map fun s => s.enterOn r).memberOn r).settle := by
  show Host.Outcome.next (pgRise r s) = _
  simp only [pgRise, h]

/-- The lease of a rail is found again after the rail has reached ON. -/
theorem memberOn_eq (hr : (s.rail r).lease = some x) (hl : s.liveLease x = some l) (hs : l.state = .starting (.rising k))
    (hk : l.members[k]? = some m) (hm : m.rail = r) :
    (s.begin.map fun s => s.enterOn r).memberOn r =
      if m.stepDelay = 0 then (s.begin.map fun s => s.enterOn r).stepOver x.slot l k
      else (s.begin.map fun s => s.enterOn r).putLease x.slot { l with state := .starting (.delay k (s.now + m.stepDelay)) } := by
  have hrail : ((s.enterOn r).rail r).lease = some x := by
    rw [enterOn_eq]
    exact (congrArg Rail.lease (State.rail_setRail_same s r _)).trans hr
  have hlease : (s.enterOn r).leaseOfRail r = some (x.slot, l) := leaseOfRail_eq hrail hl
  unfold Happening.memberOn
  simp only [Happening.map_st, begin_st, hlease, hs, hk, if_pos hm]
  rfl

theorem stepOver_last {h : Happening} {i : SlotId} (hk : k + 1 = l.members.length) :
    h.stepOver i l k = h.changeLease i { l with state := .active } .active := if_neg (by omega)

theorem stepOver_next {h : Happening} {i : SlotId} (hk : l.members[k + 1]? = some n) (hoff : (h.st.rail n.rail).state = .off) :
    h.stepOver i l k =
      h.map fun s => (s.setLease i { l with state := .starting (.rising (k + 1)) }).setRail n.rail (s.risingRail n) := by
  obtain ⟨hlt, -⟩ := List.getElem?_eq_some_iff.mp hk
  rw [Happening.stepOver, if_pos hlt, raiseMember_eq hk (by exact hoff)]
  rfl

/-- A member ON at the end of the start sequence, or with its step delay before it: the lease's record and one rail change. -/
theorem memberOn_rewrites (hr : (s.rail r).lease = some x) (hl : s.liveLease x = some l) (hs : l.state = .starting (.rising k))
    (hk : l.members[k]? = some m) (hm : m.rail = r) (hlast : m.stepDelay ≠ 0 ∨ k + 1 = l.members.length) :
    (s.begin.map fun s => s.enterOn r).memberOn r =
      { s.begin with
        st := s.rewritten x.slot
          (if m.stepDelay = 0 then { l with state := .active, count := l.count + 1 }
            else { l with state := .starting (.delay k (s.now + m.stepDelay)) }) r (s.onRail r) (s.onRecord r) s.ledger
        marks := if m.stepDelay = 0 then [(l.tenant, .lease x, .active)] else [] } := by
  obtain ⟨-, -, hhandle, -, -⟩ := liveLease_slot hl
  rw [memberOn_eq hr hl hs hk hm]
  by_cases hd : m.stepDelay = 0
  · have hmark : (s.enterOn r).handleOf x.slot = x := hhandle
    simp only [if_pos hd, stepOver_last (hlast.resolve_left (not_not_intro hd)), Happening.changeLease, Happening.map_st, begin_st,
      hmark]
    rfl
  · simp only [if_neg hd]
    rfl

/-- A member ON with no step delay starts the next member's rise: the lease's record and two rails change. -/
theorem memberOn_raises_next {d : Nat} (hr : (s.rail r).lease = some x) (hl : s.liveLease x = some l)
    (hs : l.state = .starting (.rising k)) (hk : l.members[k]? = some m) (hm : m.rail = r) (hd : m.stepDelay = 0)
    (hk' : l.members[k + 1]? = some n) (hoff : (s.rail n.rail).state = .off) (hrising : (s.rail r).state = .rising d) :
    (s.begin.map fun s => s.enterOn r).memberOn r =
      { s.begin with
        st := { s.rewritten x.slot { l with state := .starting (.rising (k + 1)) } r (s.onRail r) (s.onRecord r) s.ledger with
          rails := ((s.setRail r (s.onRail r)).setRail n.rail (s.risingRail n)).rails } } := by
  have hne : n.rail ≠ r := by
    intro h
    rw [h, hrising] at hoff
    cases hoff
  have hsame : (s.enterOn r).rail n.rail = s.rail n.rail := (State.rail_setRail s r n.rail _).trans (if_neg hne)
  have hrise : (s.enterOn r).risingRail n = s.risingRail n := by
    unfold State.risingRail
    rw [hsame]
    rfl
  rw [memberOn_eq hr hl hs hk hm, if_pos hd, stepOver_next hk' (by rw [Happening.map_st, begin_st, hsame]; exact hoff)]
  simp only [Happening.map, begin_st, hrise]
  rfl

theorem exec_stepDelayEnd {d : Nat} (hl : s.liveLease x = some l) (hs : l.state = .starting (.delay k d)) :
    exec (.stepDelayEnd x) s = .next (s.atDeadline d (s.begin.stepOver x.slot l k).settle) := by
  show Host.Outcome.next (stepDelayEnd x s) = _
  simp only [stepDelayEnd, hl, hs]

end

/-- Settles O20: the end of a step delay, at once or at its deadline, is one step of the start sequence. -/
theorem startSequenceAdvances : Obligations.StartSequenceAdvances := by
  intro s x l k hl
  obtain ⟨-, -, hhandle, -, -⟩ := liveLease_slot hl
  refine ⟨fun r m ⟨d, hd⟩ hr hs hk hm hlast => ?_, fun r m n ⟨d, hd⟩ hr hs hk hm hzero hk' hoff => ?_,
    fun d hs => ⟨fun hlt => ?_, fun hle hlast => ?_, fun m hle hk hoff => ?_⟩⟩
  · obtain ⟨hposts, hu⟩ := posted_of_eq (memberOn_rewrites hr hl hs hk hm hlast) ⟨rfl, rfl, rfl⟩
    obtain ⟨hslot, hothers⟩ := rewritten_slot hl hu
    obtain ⟨hrail, hrecord, hrails⟩ := rewritten_rail hu
    have hset := rewritten_setting hu
    exact ⟨_, exec_pgRise hd, hrail, hrecord, hrails, hslot, hothers, rewritten_budget hu, hset.queue, hset.tiers, hset.owners,
      hset.service, hset.clock, hposts⟩
  · have hne : n.rail ≠ r := by
      intro h
      rw [h, hd] at hoff
      cases hoff
    obtain ⟨hposts, hu⟩ := posted_of_eq (marks := []) (memberOn_raises_next hr hl hs hk hm hzero hk' hoff hd) ⟨rfl, rfl, rfl⟩
    have hrails : ∀ q, ((s.setRail r (s.onRail r)).setRail n.rail (s.risingRail n)).rail q =
        if q = n.rail then s.risingRail n else if q = r then s.onRail r else s.rail q := by
      intro q
      rw [State.rail_setRail, State.rail_setRail]
    refine ⟨_, exec_pgRise hd, (hu.rail r).trans ((hrails r).trans ?_), ?_, (hu.rail n.rail).trans ((hrails n.rail).trans (if_pos rfl)),
      ?_, hu.railConfig, fun q hq hq' => ⟨(hu.rail q).trans ((hrails q).trans ?_), ?_⟩, ?_, fun j hj => ?_,
      ⟨hu.feeds, hu.margin, hu.accounts, hu.chargedTotal, hu.committedTotal, hu.grantOrder⟩, hu.keepsQueue, hu.keepsTiers,
      hu.keepsOwners, hposts.keepsRings, hu.keepsService, hu.keepsClock⟩
    · rw [if_neg hne.symm, if_pos rfl]
      rfl
    · exact (hu.faultRecord r).trans (State.faultRecord_setFaultRecord_same s r _)
    · exact (hu.faultRecord n.rail).trans ((State.faultRecord_setFaultRecord s r n.rail _).trans (if_neg hne))
    · rw [if_neg hq', if_neg hq]
    · exact (hu.faultRecord q).trans ((State.faultRecord_setFaultRecord s r q _).trans (if_neg hq))
    · exact (hu.slot _).trans (slot_setLease_of_liveLease hl _)
    · exact (hu.slot j).trans (keepsOtherSlots_setLease s _ _ j hj)
  · rw [exec_stepDelayEnd hl hs, State.atDeadline_of_lt _ hlt]
  · have hexec := exec_stepDelayEnd hl hs
    rw [State.atDeadline_of_le _ hle, stepOver_last hlast] at hexec
    have hchange : s.begin.changeLease x.slot { l with state := .active } .active =
        { s.begin with
          st := s.setLease x.slot { l with state := .active, count := l.count + 1 }
          marks := [(l.tenant, .lease x, .active)] } := by
      simp only [Happening.changeLease, begin_st, hhandle]
      rfl
    obtain ⟨hposts, hu⟩ := posted_of_eq hchange ⟨rfl, rfl, rfl⟩
    exact ⟨_, hexec, (hu.slot _).trans (slot_setLease_of_liveLease hl _),
      fun j hj => (hu.slot j).trans (keepsOtherSlots_setLease s _ _ j hj), hu.keepsBudget, hu.keepsQueue, hu.keepsRails,
      hu.keepsTiers, hu.keepsOwners, hu.keepsService, hu.keepsClock, hposts⟩
  · have hexec := exec_stepDelayEnd hl hs
    rw [State.atDeadline_of_le _ hle] at hexec
    have hstep : s.begin.stepOver x.slot l k =
        { s.begin with
          st := s.rewritten x.slot { l with state := .starting (.rising (k + 1)) } m.rail (s.risingRail m)
            (s.faultRecord m.rail) s.ledger
          marks := [] } := by
      rw [stepOver_next hk hoff, ← rewritten_eq_setRail]
      rfl
    obtain ⟨hposts, hu⟩ := posted_of_eq hstep ⟨rfl, rfl, rfl⟩
    obtain ⟨hslot, hothers⟩ := rewritten_slot hl hu
    obtain ⟨hrail, hrecord, hrails⟩ := rewritten_rail hu
    have hset := rewritten_setting hu
    exact ⟨_, hexec, hslot, hothers, hrail, hrecord, hrails, rewritten_budget hu, hset.queue, hset.tiers, hset.owners,
      hposts.keepsRings, hset.service, hset.clock⟩

/-! ### LOW_REACHED and DISCHARGE_DEADLINE at a rail in no lease (R102, R127, R128) -/

/-- A rail at the bottom of its fall (R96, R102). -/
def State.downRail (s : State) (r : RailId) (locked : Bool) : Rail :=
  { s.rail r with state := if locked then .locked else .off, drive := .held 0, currentLimit := 0 }

theorem comeDown_free {h : Happening} {r : RailId} (hr : (h.st.rail r).lease = none) (locked : Bool) :
    h.comeDown r locked =
      { h with
        st := h.st.setRail r (h.st.downRail r locked)
        marks := h.marks ++ if locked then ownerMarks (h.st.owned r).owner r .locked else [] } := by
  have hlease : ((h.st.setRail r (h.st.downRail r locked)).rail r).lease = none := by
    rw [State.rail_setRail_same]
    exact hr
  have hdown : ∀ g : Happening, g.st = h.st.setRail r (h.st.downRail r locked) → g.railDown r = g := by
    intro g hg
    unfold Happening.railDown
    rw [hg, leaseOfRail_none hlease]
  unfold Happening.comeDown
  cases locked with
  | true =>
    simp only [if_true, markOwner_eq]
    rw [hdown]
    · rfl
    · rfl
  | false =>
    simp only [Bool.false_eq_true, if_false, List.append_nil]
    rw [hdown]
    · rfl
    · rfl

theorem exec_lowReached {s : State} {r : RailId} {d : Nat} (h : (s.rail r).state = .falling d) :
    exec (.lowReached r) s = .next (s.begin.comeDown r (s.locks r)).settle := by
  show Host.Outcome.next (lowReached r s) = _
  simp only [lowReached, h]

theorem exec_dischargeDeadline {s : State} {r : RailId} {d : Nat} (h : (s.rail r).state = .falling d) :
    exec (.dischargeDeadline r) s = .next (s.atDeadline d
      ((((s.begin.map fun s => s.countFault r .dischargeTimeout).faultLease r .dischargeTimeout).comeDown r true).settle)) := by
  show Host.Outcome.next (dischargeDeadline r s) = _
  simp only [dischargeDeadline, h]

theorem faultLease_free {h : Happening} {r : RailId} (hr : (h.st.rail r).lease = none) (kind : FaultKind) :
    h.faultLease r kind = h := by
  unfold Happening.faultLease
  rw [leaseOfRail_none hr]

/-- Settles O22. -/
theorem fallOfAFreeRailEnds : Obligations.FallOfAFreeRailEnds := by
  intro s r d hfalling
  refine ⟨fun hlt => ?_, fun hfree => ?_, fun hfree hle => ?_⟩
  · rw [exec_dischargeDeadline hfalling, State.atDeadline_of_lt _ hlt]
  · have hlock : (s.locks r = true) ↔ (s.config r).retryLimit < (s.faultRecord r).count := decide_eq_true_iff
    obtain ⟨hposts, hr⟩ := posted_of_eq (comeDown_free (h := s.begin) hfree (s.locks r)) ⟨rfl, rfl, rfl⟩
    simp only [State.downRail, hlock, begin_st] at hposts hr
    refine ⟨_, exec_lowReached hfalling, (hr.rail r).trans ((State.rail_setRail_same s r _).trans ?_), hr.faultRecord r,
      ⟨hr.railConfig, fun q hq => ⟨(hr.rail q).trans ((State.rail_setRail s r q _).trans (if_neg hq)), hr.faultRecord q⟩⟩,
      hr.keepsLeases, hr.keepsBudget, hr.keepsQueue, hr.keepsTiers, hr.keepsOwners, hr.keepsService, hr.keepsClock, hposts⟩
    simp only [hfree]
  · have hexec := exec_dischargeDeadline hfalling
    have hfree' : ((s.countFault r .dischargeTimeout).rail r).lease = none := hfree
    rw [State.atDeadline_of_le _ hle, faultLease_free (h := s.begin.map fun s => s.countFault r .dischargeTimeout) hfree'] at hexec
    obtain ⟨hposts, hr⟩ := posted_of_eq (s := s)
      (comeDown_free (h := s.begin.map fun s => s.countFault r .dischargeTimeout) hfree' true) ⟨rfl, rfl, rfl⟩
    refine ⟨_, hexec, (hr.rail r).trans ((State.rail_setRail_same _ r _).trans ?_),
      (hr.faultRecord r).trans (State.faultRecord_setFaultRecord_same s r _),
      ⟨hr.railConfig, fun q hq => ⟨(hr.rail q).trans ((State.rail_setRail _ r q _).trans (if_neg hq)),
        (hr.faultRecord q).trans ((State.faultRecord_setFaultRecord s r q _).trans (if_neg hq))⟩⟩,
      hr.keepsLeases, hr.keepsBudget, hr.keepsQueue, hr.keepsTiers, hr.keepsOwners, hr.keepsService, hr.keepsClock, hposts⟩
    simp only [State.downRail, Happening.map_st, begin_st, if_true, hfree']

/-! ### SLEW_DEADLINE with power-good high (R110) -/

theorem exec_slewDeadline {s : State} {r : RailId} {d : Nat} (h : (s.rail r).state = .slewing d) (pgHigh : Bool) :
    exec (.slewDeadline r pgHigh) s = .next (s.atDeadline d
      (if pgHigh then ((s.begin.map fun s => s.enterOn r).slewEnded r).settle else (s.begin.fault r .slewTimeout).settle)) := by
  show Host.Outcome.next (slewDeadline r pgHigh s) = _
  simp only [slewDeadline, h]

/-- The ledger with a part of a charge credited in the three totals (R60). -/
def Ledger.credited (k : Ledger) (t : TenantId) (c : Nat) : Ledger :=
  { k with
    accounts := vset k.accounts t { vget k.accounts t with charged := (vget k.accounts t).charged - c }
    charged := k.charged - c, committed := k.committed - c }

theorem credited_accounts (s : State) (t n : TenantId) (c : Nat) : vget (s.ledger.credited t c).accounts n =
    if n = t then { s.account n with charged := (s.account n).charged - c } else s.account n := by
  refine (vget_vset s.accounts t n _).trans ?_
  split
  · next hn => rw [hn]; rfl
  · rfl

/-- A credit of nothing. -/
theorem creditAll_zero (s : State) (t : TenantId) : s.creditAll t 0 = s := by
  have hsame : vset s.accounts t (s.account t) = s.accounts := vset_vget s.accounts t
  show { s with accounts := vset s.accounts t (s.account t) } = s
  rw [hsame]

/-- What a fall of a charge credits (R60, R64): nothing where the charge does not fall. -/
theorem creditFall_eq (h : Happening) (t : TenantId) (old new : Nat) :
    h.creditFall t old new = { h with st := h.st.creditAll t (old - new), rise := h.rise || decide (new < old) } := by
  unfold Happening.creditFall
  by_cases hlt : new < old
  · simp only [hlt, if_true, decide_true, Bool.or_true]
    rfl
  · have hzero : old - new = 0 := by omega
    rw [if_neg hlt, hzero, creditAll_zero, decide_eq_false hlt, Bool.or_false]

/-- The end of the one slew of a one-member adjustment: its new values stand, at its new charge (R15, R52, R110). -/
theorem slewEnded_sole {s : State} {x : Handle} {l : Lease} {r : RailId} {m : Member} {a : Adjustment} {v : MemberChange}
    (hr : (s.rail r).lease = some x) (hl : s.liveLease x = some l) (hms : l.members = [m]) (hm : m.rail = r)
    (hs : l.state = .adjusting a) (hslewing : a.slewing = [0]) (hchanges : a.changes = [v]) (hv : v.member = 0) :
    (s.begin.map fun s => s.enterOn r).slewEnded r =
      { s.begin with
        st := s.rewritten x.slot
          { l with state := .active, members := [v.apply m], charge := a.newCharge, count := l.count + 1 }
          r (s.onRail r) (s.onRecord r) (s.ledger.credited l.tenant (l.charge - a.newCharge))
        marks := [(l.tenant, .lease x, .active)], rise := decide (a.newCharge < l.charge) } := by
  obtain ⟨-, -, hhandle, -, -⟩ := liveLease_slot hl
  have hrail : ((s.enterOn r).rail r).lease = some x := by
    rw [enterOn_eq]
    exact (congrArg Rail.lease (State.rail_setRail_same s r _)).trans hr
  have hlease : (s.enterOn r).leaseOfRail r = some (x.slot, l) := leaseOfRail_eq hrail hl
  have hleft : (([0] : List Nat).filter fun k => decide ((([m] : List Member)[k]?).map Member.rail ≠ some r)) = [] := by
    simp [hm]
  have hmark : (s.enterOn r).handleOf x.slot = x := hhandle
  unfold Happening.slewEnded
  simp only [Happening.map_st, begin_st, hlease, hs, hslewing, hms, hleft, if_true, hchanges, applyChanges_sole hv, creditFall_eq,
    Happening.changeLease, hmark]
  rfl

/-- Settles O21. -/
theorem slewDeadlineSettlesTheAdjustment : Obligations.SlewDeadlineSettlesTheAdjustment := by
  intro s r d hd
  refine ⟨fun hlt pgHigh => ?_, fun x l m a v hle hr hl hms hm hs hslewing hchanges hv hqueue => ?_⟩
  · rw [exec_slewDeadline hd, State.atDeadline_of_lt _ hlt]
  · have hexec := exec_slewDeadline hd true
    have hend := slewEnded_sole hr hl hms hm hs hslewing hchanges hv
    rw [State.atDeadline_of_le _ hle, if_pos rfl] at hexec
    obtain ⟨hposts, hu⟩ := posted_of_rise hend ⟨rfl, rfl, rfl⟩ (fun h => hqueue (of_decide_eq_true h))
    obtain ⟨hslot, hothers⟩ := rewritten_slot hl hu
    obtain ⟨hrail, hrecord, hrails⟩ := rewritten_rail hu
    have hset := rewritten_setting hu
    exact ⟨_, hexec, hrail, hrecord, hrails, hslot, hothers, hu.chargedTotal, hu.committedTotal,
      fun n => (hu.account n).trans (credited_accounts s l.tenant n _), hu.grantOrder, hset.feeds, hset.margin, hset.queue,
      hset.tiers, hset.owners, hset.service, hset.clock, hposts⟩

end Sys2Proof.Machine

/-! PROOFS. The stop of a lease: its beginning by RELEASE, REVOKE or a fault (R9, R22, R23, R112, R120 to R124), its turn, and its
end (R113, R116, R130). -/

namespace Sys2Proof.Machine

/-! ### A rail that is told to fall (R96, R102, R129) -/

/-- A rail after it was told to fall: a powered one is FALLING, any other is left alone. -/
def State.felled (s : State) (r : RailId) : Rail :=
  if (s.rail r).powered then
    { s.rail r with state := .falling (s.now + (s.config r).discharge), drive := .held ((s.rail r).drive.at s.now) }
  else s.rail r

/-- Its fault record: the stable deadline of a powered rail is cancelled. -/
def State.felledRecord (s : State) (r : RailId) : FaultRecord :=
  if (s.rail r).powered then { s.faultRecord r with stable := none } else s.faultRecord r

theorem enterFalling_eq (s : State) (r : RailId) :
    s.enterFalling r = (s.setRail r (s.felled r)).setFaultRecord r (s.felledRecord r) := by
  unfold State.enterFalling State.felled State.felledRecord
  split
  · rfl
  · have hrails : vset s.rails r (s.rail r) = s.rails := vset_vget s.rails r
    have hfaults : vset s.faults r (s.faultRecord r) = s.faults := vset_vget s.faults r
    show s = { s with rails := vset s.rails r (s.rail r), faults := vset s.faults r (s.faultRecord r) }
    rw [hrails, hfaults]

theorem rail_enterFalling (s : State) (r q : RailId) : (s.enterFalling r).rail q = if q = r then s.felled r else s.rail q := by
  rw [enterFalling_eq]
  exact State.rail_setRail s r q _

theorem faultRecord_enterFalling (s : State) (r q : RailId) :
    (s.enterFalling r).faultRecord q = if q = r then s.felledRecord r else s.faultRecord q := by
  rw [enterFalling_eq]
  exact State.faultRecord_setFaultRecord s r q _

theorem down_of_powered {r : Rail} (h : r.powered = true) : r.down = false := by
  unfold Rail.powered at h
  unfold Rail.down
  cases hs : r.state <;> simp only [hs] at h ⊢ <;> cases h

/-- A rail that is not down is not down after it was told to fall. -/
theorem down_felled {s : State} {r : RailId} (h : (s.rail r).down = false) : (s.felled r).down = false := by
  unfold State.felled
  split
  · rfl
  · exact h

/-! ### The member in turn (R112) -/

/-- The member in turn is the one that is not down with every later member down. -/
theorem turnOf_eq_some {s : State} {ms : List Member} {k : Nat} {m : Member} (hk : ms[k]? = some m)
    (hm : (s.rail m.rail).down = false) (hlater : ∀ j n, k < j → ms[j]? = some n → (s.rail n.rail).down = true) :
    s.turnOf ms = some k := by
  obtain ⟨hlt, -⟩ := List.getElem?_eq_some_iff.mp hk
  obtain ⟨c, hc⟩ := Nat.exists_eq_add_of_lt hlt
  have hsplit : (List.range ms.length).reverse = ((List.range c).map (k + 1 + ·)).reverse ++ k :: (List.range k).reverse := by
    have hlen : ms.length = k + 1 + c := by omega
    rw [hlen, List.range_add, List.reverse_append, List.range_succ, List.reverse_append]
    rfl
  unfold State.turnOf
  rw [List.find?_eq_some_iff_append]
  refine ⟨?_, _, _, hsplit, fun j hj => ?_⟩
  · simp only [hk, hm, Bool.not_false]
  · rw [List.mem_reverse, List.mem_map] at hj
    obtain ⟨a, -, rfl⟩ := hj
    split
    · next n hn => rw [hlater _ n (by omega) hn]; rfl
    · rfl

theorem takeTurn_eq {h : Happening} {i : SlotId} {l : Lease} {stop : StopRecord} {k : Nat} {m : Member}
    (hturn : h.st.turnOf l.members = some k) (hk : l.members[k]? = some m) :
    h.takeTurn i l stop =
      h.map fun s => (s.setLease i { l with state := .stopping { stop with inTurn := some k } }).enterFalling m.rail := by
  unfold Happening.takeTurn
  simp only [hturn, hk]
  rfl

theorem allDown_eq_false {s : State} {ms : List Member} {k : Nat} {m : Member} (hk : ms[k]? = some m)
    (hm : (s.rail m.rail).down = false) : s.allDown ms = false := by
  rw [State.allDown, List.all_eq_false]
  exact ⟨m, List.mem_of_getElem? hk, by rw [hm]; exact Bool.false_ne_true⟩

/-- A SEQUENCED stop with a member not down begins with its turn (R112). -/
theorem beginStop_turns {h : Happening} {i : SlotId} {l : Lease} {stop : StopRecord} (hup : h.st.allDown l.members = false)
    (hmode : stop.mode = .sequenced) : h.beginStop i l stop = h.takeTurn i l stop := by
  unfold Happening.beginStop
  simp only [hup, hmode, Bool.false_eq_true, if_false]

/-! ### The entry to STOPPING (R9, R52, R60) -/

/-- The ledger without the committed charge of a lease and its place on the grant order list. -/
def Ledger.uncommitted (k : Ledger) (c : Nat) (x : Handle) : Ledger :=
  { k with committed := k.committed - c, order := k.order.filter (· ≠ x) }

/-- A state with one lease's record and the ledger written. -/
def State.relisted (s : State) (i : SlotId) (l : Lease) (k : Ledger) : State :=
  { s with
    slots := (s.setLease i l).slots
    accounts := k.accounts, chargedTotal := k.charged, committedTotal := k.committed, grantOrder := k.order }

theorem setLease_relisted (s : State) (i : SlotId) (l l' : Lease) (k : Ledger) :
    (s.relisted i l k).setLease i l' = s.relisted i l' k := by
  have hslot : (s.relisted i l k).slot i = { s.slot i with lease := some l } := (slot_setLease s i i l).trans (if_pos rfl)
  have hslots : vset (s.setLease i l).slots i { (s.relisted i l k).slot i with lease := some l' } = (s.setLease i l').slots := by
    rw [hslot]
    exact vset_vset s.slots i _ _
  show { s.relisted i l k with slots := vset (s.setLease i l).slots i { (s.relisted i l k).slot i with lease := some l' } } = _
  rw [hslots]
  rfl

theorem enterFalling_relisted (s : State) (i : SlotId) (l : Lease) (k : Ledger) (r : RailId) :
    (s.relisted i l k).enterFalling r = s.rewritten i l r (s.felled r) (s.felledRecord r) k := by
  rw [enterFalling_eq]
  rfl

/-- The record of a lease whose stop has begun with a member in turn. -/
def Lease.stoppedAt (l : Lease) (cause : StopCause) (fault : Option (RailId × FaultKind)) (turn : Nat) : Lease :=
  { l.resolved cause with
    state := .stopping { stopRecord l cause fault with inTurn := some turn }, count := (l.resolved cause).count + 1 }

/-- The ledger after a lease has entered STOPPING at a charge. -/
def Ledger.stopping (k : Ledger) (l : Lease) (charge : Nat) (x : Handle) : Ledger :=
  (k.credited l.tenant (l.charge - charge)).uncommitted charge x

theorem enterStopping_eq (h : Happening) (i : SlotId) (l : Lease) (cause : StopCause) (fault : Option (RailId × FaultKind)) :
    h.enterStopping i l cause fault =
      { h with
        st := h.st.relisted i (l.stopped cause fault) (h.st.ledger.stopping l (l.resolved cause).charge (h.st.handleOf i))
        rise := h.rise || decide ((l.resolved cause).charge < l.charge)
        marks := h.marks ++ [((l.resolved cause).tenant, .lease (h.st.handleOf i), .stopping)] } := by
  unfold Happening.enterStopping
  rw [creditFall_eq]
  rfl

/-- A running lease with a member not down enters STOPPING, and its member in turn is told to fall. -/
theorem stopLease_turns {h : Happening} {i : SlotId} {l : Lease} {cause : StopCause} {fault : Option (RailId × FaultKind)} {k : Nat}
    {m : Member} (hcause : cause ≠ .emergency) (hk : (l.resolved cause).members[k]? = some m)
    (hm : (h.st.rail m.rail).down = false)
    (hlater : ∀ j n, k < j → (l.resolved cause).members[j]? = some n → (h.st.rail n.rail).down = true) :
    h.stopLease i l cause fault =
      { h with
        st := h.st.rewritten i (l.stoppedAt cause fault k) m.rail (h.st.felled m.rail) (h.st.felledRecord m.rail)
          (h.st.ledger.stopping l (l.resolved cause).charge (h.st.handleOf i))
        rise := h.rise || decide ((l.resolved cause).charge < l.charge)
        marks := h.marks ++ [((l.resolved cause).tenant, .lease (h.st.handleOf i), .stopping)] } := by
  have hmode : (stopRecord l cause fault).mode = .sequenced := if_neg hcause
  have hrails : ∀ r, (h.enterStopping i l cause fault).st.rail r = h.st.rail r := by
    intro r
    rw [enterStopping_eq]
    rfl
  have hturn : (h.enterStopping i l cause fault).st.turnOf (l.stopped cause fault).members = some k :=
    turnOf_eq_some hk (by rw [hrails]; exact hm) (fun j n hj hn => by rw [hrails]; exact hlater j n hj hn)
  have hup : (h.enterStopping i l cause fault).st.allDown (l.stopped cause fault).members = false :=
    allDown_eq_false hk (by rw [hrails]; exact hm)
  rw [stopLease_eq, beginStop_turns hup hmode, takeTurn_eq hturn hk]
  simp only [enterStopping_eq, Happening.map, setLease_relisted, enterFalling_relisted]
  rfl

/-- A lease with no pending adjustment keeps its values in a stop. -/
theorem resolved_of_settled {l : Lease} (h : l.state = .active ∨ ∃ p, l.state = .starting p) (cause : StopCause) :
    l.resolved cause = l := by
  unfold Lease.resolved
  obtain hs | ⟨p, hs⟩ := h <;> rw [hs]

theorem credited_zero (k : Ledger) (t : TenantId) : k.credited t 0 = k := by
  have hsame : vset k.accounts t (vget k.accounts t) = k.accounts := vset_vget k.accounts t
  show { k with accounts := vset k.accounts t (vget k.accounts t) } = k
  rw [hsame]

/-- Settles O17. -/
theorem releaseAndRevokeStopRunningLeases : Obligations.ReleaseAndRevokeStopRunningLeases := by
  intro s i t c cmd w l k m cause hi H hl hruns hk hpowered hlater
  obtain ⟨-, -, hhandle, -, -⟩ := liveLease_slot hl
  have hcause : cause = .released ∨ cause = .revoked := by
    obtain ⟨-, -, h, -⟩ | ⟨-, -, h, -⟩ := hi
    · exact Or.inl h
    · exact Or.inr h
  have hres := resolved_of_settled hruns cause
  have hrecord : stopRecord l cause none =
      { cause := cause, mode := .sequenced, faulted := [], firstFault := none, suspendMark := false, inTurn := none } := by
    obtain rfl | rfl := hcause <;> rfl
  have hstop : s.begin.stopCause (handleOfWord w).slot l cause =
      { s.begin with
        st := s.rewritten (handleOfWord w).slot (l.stoppedAt cause none k) m.rail (s.felled m.rail) (s.felledRecord m.rail)
          (s.ledger.uncommitted l.charge (handleOfWord w))
        marks := [(l.tenant, .lease (handleOfWord w), .stopping)] } := by
    have hturns := stopLease_turns (h := s.begin) (i := (handleOfWord w).slot) (cause := cause) (fault := none)
      (by obtain rfl | rfl := hcause <;> exact fun k => nomatch k) (hres.symm ▸ hk) (down_of_powered hpowered)
      (hres.symm ▸ hlater)
    rw [hres, begin_st, hhandle, Ledger.stopping, Nat.sub_self, credited_zero] at hturns
    have hsame : s.begin.stopCause (handleOfWord w).slot l cause = s.begin.stopLease (handleOfWord w).slot l cause none := by
      unfold Happening.stopCause
      obtain hs | ⟨p, hs⟩ := hruns <;> simp only [hs]
    rw [hsame, hturns, decide_eq_false (lt_irrefl _)]
    rfl
  have hrunning : l.stop? = none := by
    unfold Lease.stop?
    obtain hs | ⟨p, hs⟩ := hruns <;> rw [hs]
  obtain ⟨hfin, hr⟩ := answered_of_eq hstop H ⟨rfl, rfl, rfl⟩ .ok none 0
  obtain ⟨hslot, hothers⟩ := rewritten_slot hl hr
  obtain ⟨hrail, hrecord', hrails⟩ := rewritten_rail hr
  have hset := rewritten_setting hr
  rw [Lease.stoppedAt, hres, hrecord] at hslot
  rw [State.felled, if_pos hpowered] at hrail
  rw [State.felledRecord, if_pos hpowered] at hrecord'
  exact ⟨_, exec_giveUp hi H.1 hl hrunning, hslot, hothers, hr.chargedTotal, hr.committedTotal, hr.accounts, hr.grantOrder,
    hset.feeds, hset.margin, hset.queue, hrail, hrecord', hrails, hset.tiers, hset.owners, hset.service, hset.clock, hfin⟩

/-! ### LOW_REACHED in a stop (R102, R113, R116) -/

/-- A rail that is not to be locked has come down to OFF. -/
def State.lowered (s : State) (r : RailId) : State := s.setRail r (s.downRail r false)

theorem rail_lowered (s : State) (r q : RailId) :
    (s.lowered r).rail q =
      if q = r then { s.rail r with state := .off, drive := .held 0, currentLimit := 0 } else s.rail q := by
  refine (State.rail_setRail s r q _).trans ?_
  unfold State.downRail
  rw [if_neg Bool.false_ne_true]

/-- Without a fault and a suspend mark a stop ends its lease with the reason of its cause (R130). -/
theorem completeStop_finishes {h : Happening} {i : SlotId} {l : Lease} {stop : StopRecord} (hcause : stop.cause ≠ .fault)
    (hmark : stop.suspendMark = false) : h.completeStop i l stop = h.endLease i l stop.cause.endReason := by
  have houtcome : h.st.stopOutcome l stop = .finish stop.cause.endReason := by
    unfold State.stopOutcome
    simp only [if_neg hcause, hmark, Bool.false_and, Bool.false_eq_true, if_false, ite_self]
  unfold Happening.completeStop Happening.settleStop
  simp only [houtcome]

/-- The end of a STOPPING lease gives back the charge it holds. -/
theorem endLease_of_stopping {h : Happening} {i : SlotId} {l : Lease} {stop : StopRecord} (hs : l.state = .stopping stop)
    (reason : EndReason) :
    h.endLease i l reason =
      { h with
        st := (h.st.creditHeld l.tenant l.charge).leaseEnded i l reason, rise := true, check := true, loose := h.loose ++ [i]
        marks := h.marks ++ [(l.tenant, .lease (h.st.handleOf i), .ended)] } := by
  have hback : h.giveBack i l = { h with st := h.st.creditHeld l.tenant l.charge, rise := true } := by
    unfold Happening.giveBack
    simp only [hs]
    rfl
  have hmark : (h.st.creditHeld l.tenant l.charge).handleOf i = h.st.handleOf i := rfl
  rw [endLease_eq, hback]
  simp only [hmark]

theorem account_creditHeld (s : State) (t n : TenantId) (c : Nat) :
    (s.creditHeld t c).account n = if n = t then { s.account n with charged := (s.account n).charged - c } else s.account n := by
  rw [State.creditHeld, State.subCharged, State.account_setAccount]
  split
  · next hn => rw [hn]; rfl
  · rfl

section
variable {s : State} {r : RailId} {x : Handle} {l : Lease} {stop : StopRecord}

/-- The lease of a lowered rail is found. -/
theorem comeDown_unlocked (hr : (s.rail r).lease = some x) (hl : s.liveLease x = some l) :
    s.begin.comeDown r false = { s.begin with st := s.lowered r }.railDown r ∧
      (s.lowered r).leaseOfRail r = some (x.slot, l) := by
  have hrail : ((s.lowered r).rail r).lease = some x := by
    rw [rail_lowered, if_pos rfl]
    exact hr
  exact ⟨rfl, leaseOfRail_eq hrail hl⟩

theorem comeDown_completes (hr : (s.rail r).lease = some x) (hl : s.liveLease x = some l) (hs : l.state = .stopping stop)
    (hdown : (s.lowered r).allDown l.members = true) :
    s.begin.comeDown r false = { s.begin with st := s.lowered r }.completeStop x.slot l stop := by
  obtain ⟨hcome, hlease⟩ := comeDown_unlocked hr hl
  rw [hcome]
  unfold Happening.railDown
  simp only [hlease, hs, hdown, if_true]

theorem comeDown_turns {k : Nat} {m : Member} (hr : (s.rail r).lease = some x) (hl : s.liveLease x = some l)
    (hs : l.state = .stopping stop) (hup : (s.lowered r).allDown l.members = false) (hturn : stop.inTurn = some k)
    (hk : l.members[k]? = some m) (hm : m.rail = r) :
    s.begin.comeDown r false = { s.begin with st := s.lowered r }.takeTurn x.slot l stop := by
  obtain ⟨hcome, hlease⟩ := comeDown_unlocked hr hl
  rw [hcome]
  unfold Happening.railDown
  simp only [hlease, hs, hup, Bool.false_eq_true, if_false, hturn, hk, Option.map_some, hm, if_true]

theorem comeDown_out_of_turn (hr : (s.rail r).lease = some x) (hl : s.liveLease x = some l) (hs : l.state = .stopping stop)
    (hup : (s.lowered r).allDown l.members = false)
    (hturn : ∀ k, stop.inTurn = some k → (l.members[k]?).map Member.rail ≠ some r) :
    s.begin.comeDown r false = { s.begin with st := s.lowered r } := by
  obtain ⟨hcome, hlease⟩ := comeDown_unlocked hr hl
  rw [hcome]
  unfold Happening.railDown
  simp only [hlease, hs, hup, Bool.false_eq_true, if_false]
  split
  · next k hk => rw [if_neg (hturn k hk)]
  · rfl

end

theorem fault_not_ending {cause : StopCause} {reason : EndReason}
    (h : (cause, reason) ∈ [(StopCause.released, EndReason.released), (.revoked, .revoked), (.lapsed, .lapsed), (.shed, .shed),
      (.tenantClosed, .tenantClosed), (.serviceStopped, .serviceStopped), (.emergency, .emergency)]) :
    cause ≠ .fault ∧ cause.endReason = reason := by
  cases cause <;> simp [StopCause.endReason] at h ⊢ <;> exact h.symm

/-- Settles O23: the three ways of `railDown` at a STOPPING lease. -/
theorem lowReachedEndsAStop : Obligations.LowReachedEndsAStop := by
  intro s r d x l stop hfalling hr hl hmem hs hcount
  obtain ⟨-, -, hhandle, -, -⟩ := liveLease_slot hl
  have hexec := exec_lowReached hfalling
  have hlocks : s.locks r = false := decide_eq_false (Nat.not_lt.mpr hcount)
  rw [hlocks] at hexec
  have hsame : ∀ q, q ≠ r → (s.lowered r).rail q = s.rail q := fun q hq => (rail_lowered s r q).trans (if_neg hq)
  have hself : (s.lowered r).rail r = { s.rail r with state := .off, drive := .held 0, currentLimit := 0 } :=
    (rail_lowered s r r).trans (if_pos rfl)
  refine ⟨fun reason hdown hmark hcause hqueue hsteady hh => ?_, fun k j m n hturn hk hm hj hn hup hlater => ?_,
    fun hturn ⟨n, hn, hne, hup⟩ => ?_⟩
  · obtain ⟨hfault, rfl⟩ := fault_not_ending hcause
    have hall : (s.lowered r).allDown l.members = true := by
      refine List.all_eq_true.mpr fun m hm => ?_
      by_cases hq : m.rail = r
      · rw [hq, hself]; rfl
      · rw [hsame _ hq]; exact hdown m hm hq
    have hend := (comeDown_completes hr hl hs hall).trans
      ((completeStop_finishes hfault hmark).trans (endLease_of_stopping hs stop.cause.endReason))
    have hmarks : (s.begin.comeDown r false).marks = [(l.tenant, .lease x, .ended)] :=
      (congrArg Happening.marks hend).trans (congrArg (fun y => [(l.tenant, Subject.lease y, Reason.ended)]) hhandle)
    obtain ⟨hposts, hu⟩ := posted_of_steady (s := s) (congrArg Happening.st hend) hmarks ⟨rfl, rfl, rfl⟩ rfl
      (congrArg Happening.answers hend) (fun _ => hqueue) hsteady
      (marksLoose_one (congrArg Happening.loose hend) (by rw [hend]; exact (handleOf_leaseEnded _ _ l _).trans hhandle)
        (by rw [hmarks]; exact List.mem_singleton_self _) hh)
    have hrail : ∀ q, _ := fun q => (hu.rail q).trans (rail_leaseEnded _ _ l stop.cause.endReason q)
    refine ⟨_, hexec, (hrail r).trans ?_, fun q hq => (hrail q).trans ?_, hu.railConfig, hu.faults,
      (hu.slot _).trans (slot_setLease_of_liveLease hl _), fun j hj => (hu.slot j).trans (keepsOtherSlots_setLease s _ _ j hj),
      hu.chargedTotal, hu.committedTotal, fun n => (hu.account n).trans (account_creditHeld s l.tenant n l.charge), hu.grantOrder,
      hu.feeds, hu.margin, hu.keepsQueue, hu.keepsTiers, hu.keepsOwners, hu.keepsService, hu.keepsClock, hposts⟩
    · rw [if_pos hmem]
      exact congrArg (fun y : Rail => { y with lease := none }) hself
    · exact congrArg (fun y : Rail => if q ∈ l.members.map Member.rail then { y with lease := none } else y) (hsame q hq)
  · have hnotDown : ((s.lowered r).rail n.rail).down = false := by rw [hsame _ hn]; exact hup
    have hturn' : (s.lowered r).turnOf l.members = some j := by
      refine turnOf_eq_some hj hnotDown fun i y hi hy => ?_
      by_cases hq : y.rail = r
      · rw [hq, hself]; rfl
      · rw [hsame _ hq]; exact (hlater i y hi hy).resolve_left hq
    have hend : s.begin.comeDown r false =
        { s.begin with
          st := (s.lowered r).rewritten x.slot { l with state := .stopping { stop with inTurn := some j } } n.rail
            ((s.lowered r).felled n.rail) ((s.lowered r).felledRecord n.rail) s.ledger
          marks := [] } := by
      rw [comeDown_turns hr hl hs (allDown_eq_false hj hnotDown) hturn hk hm, takeTurn_eq hturn' hj]
      simp only [Happening.map, enterFalling_eq]
      rfl
    obtain ⟨hposts, hu⟩ := posted_of_eq hend ⟨rfl, rfl, rfl⟩
    obtain ⟨hslot, hothers⟩ := rewritten_slot (s := s.lowered r) hl hu
    obtain ⟨hrail, hrecord, -, hrails⟩ := rewritten_rail hu
    have hset := rewritten_setting hu
    rw [State.felled, hsame _ hn] at hrail
    rw [State.felledRecord, hsame _ hn] at hrecord
    obtain ⟨hrailr, hrecordr⟩ := hrails r hn.symm
    exact ⟨_, hexec, hrailr.trans hself, hrecordr, hrail, hrecord,
      fun q hq hq' => ⟨(hrails q hq').1.trans (hsame q hq), (hrails q hq').2⟩, hu.railConfig, hslot, hothers,
      rewritten_budget (s := s.lowered r) hu, hset.queue, hset.tiers, hset.owners, hposts.keepsRings, hset.service, hset.clock⟩
  · obtain ⟨j, hj⟩ := List.mem_iff_getElem?.mp hn
    have hnotDown : ((s.lowered r).rail n.rail).down = false := by rw [hsame _ hne]; exact hup
    obtain ⟨hposts, hu⟩ := posted_of_eq (marks := [])
      (comeDown_out_of_turn hr hl hs (allDown_eq_false hj hnotDown) hturn) ⟨rfl, rfl, rfl⟩
    exact ⟨_, hexec, (hu.rail r).trans hself, hu.faultRecord r,
      ⟨hu.railConfig, fun q hq => ⟨(hu.rail q).trans (hsame q hq), hu.faultRecord q⟩⟩, hu.keepsLeases, hu.keepsBudget,
      hu.keepsQueue, hu.keepsTiers, hu.keepsOwners, hposts.keepsRings, hu.keepsService, hu.keepsClock⟩

/-! ### Faults (R120 to R124) -/

theorem stageFault_of_not_down {s : State} {r : RailId} (h : (s.rail r).down = false) (kind : StageFault) :
    stageFault r kind s = (s.begin.fault r (stageKind kind)).settle := by
  unfold stageFault
  split
  case h_1 hs => exact absurd h (by simp only [Rail.down, hs]; decide)
  case h_2 hs => exact absurd h (by simp only [Rail.down, hs]; decide)
  case h_3 => rfl

/-- The five rows that bring a fault pass it to the fault unit (R99 to R102). -/
theorem exec_faultRow {s : State} {r : RailId} {kind : FaultKind} {i : Instr} (h : FaultRow s r kind i) :
    exec i s = .next (s.begin.fault r kind).settle := by
  obtain ⟨rfl, rfl, hs⟩ | ⟨rfl, rfl, hs⟩ | ⟨rfl, rfl, hs⟩ | ⟨rfl, rfl, d, hs, hle⟩ | ⟨rfl, rfl, d, hs, hle⟩ := h
  · show Host.Outcome.next (pgFall r s) = _
    obtain hs | ⟨d, hs⟩ := hs <;> simp only [pgFall, hs]
  · exact congrArg Host.Outcome.next (stageFault_of_not_down hs .overcurrent)
  · exact congrArg Host.Outcome.next (stageFault_of_not_down hs .overtemperature)
  · show Host.Outcome.next (rampDeadline r s) = _
    simp only [rampDeadline, hs, State.atDeadline_of_le _ hle]
  · rw [exec_slewDeadline hs, State.atDeadline_of_le _ hle, if_neg Bool.false_ne_true]

/-- A fault record with one more fault (R122). -/
def FaultRecord.counted (x : FaultRecord) (kind : FaultKind) : FaultRecord :=
  { count := min 15 (x.count + 1), last := some kind, stable := none }

/-- The state with a fault counted and its rail told to fall (R122, R123). -/
def State.faulted (s : State) (r : RailId) (kind : FaultKind) : State :=
  (s.setRail r (s.felled r)).setFaultRecord r ((s.faultRecord r).counted kind)

theorem faulted_eq (s : State) (r : RailId) (kind : FaultKind) : (s.countFault r kind).enterFalling r = s.faulted r kind := by
  have hrecord : (s.countFault r kind).felledRecord r = (s.faultRecord r).counted kind := by
    have hcounted : (s.countFault r kind).faultRecord r = (s.faultRecord r).counted kind :=
      State.faultRecord_setFaultRecord_same s r _
    unfold State.felledRecord
    rw [hcounted]
    exact ite_self _
  have hfaults : vset (vset s.faults r ((s.faultRecord r).counted kind)) r ((s.faultRecord r).counted kind) =
      vset s.faults r ((s.faultRecord r).counted kind) := vset_vset s.faults r _ _
  rw [enterFalling_eq, hrecord]
  show { s.setRail r (s.felled r) with
    faults := vset (vset s.faults r ((s.faultRecord r).counted kind)) r ((s.faultRecord r).counted kind) } = _
  rw [hfaults]
  rfl

theorem rail_faulted (s : State) (r q : RailId) (kind : FaultKind) :
    (s.faulted r kind).rail q = if q = r then s.felled r else s.rail q := State.rail_setRail s r q _

theorem faultRecord_faulted (s : State) (r q : RailId) (kind : FaultKind) :
    (s.faulted r kind).faultRecord q = if q = r then (s.faultRecord r).counted kind else s.faultRecord q :=
  State.faultRecord_setFaultRecord s r q _

section
variable {s : State} {r : RailId} {kind : FaultKind} {x : Handle} {l : Lease}

theorem lease_felled (s : State) (r : RailId) : (s.felled r).lease = (s.rail r).lease := by
  unfold State.felled
  split <;> rfl

/-- The lease of a faulted rail is found. -/
theorem leaseOfRail_faulted (hr : (s.rail r).lease = some x) (hl : s.liveLease x = some l) :
    (s.faulted r kind).leaseOfRail r = some (x.slot, l) := by
  refine leaseOfRail_eq ?_ hl
  rw [rail_faulted, if_pos rfl, lease_felled]
  exact hr

/-- A fault at a rail of a STOPPING lease is recorded in its stop (R124). -/
theorem fault_of_stopping {stop : StopRecord} (hr : (s.rail r).lease = some x) (hl : s.liveLease x = some l)
    (hs : l.state = .stopping stop) :
    s.begin.fault r kind =
      { s.begin with
        st := s.rewritten x.slot { l with state := .stopping (stop.withFault r kind) } r (s.felled r)
          ((s.faultRecord r).counted kind) s.ledger
        marks := [] } := by
  unfold Happening.fault Happening.faultLease
  simp only [Happening.map_st, begin_st, faulted_eq, leaseOfRail_faulted hr hl, hs]
  rfl

/-- A fault at a rail of a running lease stops it with cause FAULT (R123). -/
theorem fault_of_running (hr : (s.rail r).lease = some x) (hl : s.liveLease x = some l)
    (hs : l.state = .active ∨ (∃ p, l.state = .starting p) ∨ ∃ a, l.state = .adjusting a) :
    s.begin.fault r kind = { s.begin with st := s.faulted r kind }.stopLease x.slot l .fault (some (r, kind)) := by
  unfold Happening.fault Happening.faultLease
  simp only [Happening.map_st, begin_st, faulted_eq, leaseOfRail_faulted hr hl]
  obtain hs | ⟨p, hs⟩ | ⟨a, hs⟩ := hs <;> simp only [hs] <;> rfl

/-- A one-member lease at the end of a fault: its values, with a pending adjustment resolved (R15, R52). -/
theorem resolved_sole {m n : Member} {charge : Nat} (hms : l.members = [m])
    (h : ((l.state = .active ∨ ∃ p, l.state = .starting p) ∧ n = m ∧ charge = l.charge) ∨
      ∃ a v, l.state = .adjusting a ∧ a.changes = [v] ∧ v.member = 0 ∧ charge = a.newCharge ∧ n = v.apply m) :
    l.resolved .fault = { l with members := [n], charge := charge } := by
  obtain ⟨hs, rfl, rfl⟩ | ⟨a, v, hs, hchanges, hv, rfl, rfl⟩ := h
  · rw [resolved_of_settled hs, ← hms]
  · unfold Lease.resolved
    simp only [hs, hms, hchanges, applyChanges_sole hv, if_true]

/-- A fault at the powered rail of a one-member lease: its stop begins with the rail FALLING already. -/
theorem fault_of_sole {n : Member} {charge : Nat} (hr : (s.rail r).lease = some x) (hl : s.liveLease x = some l)
    (hpowered : (s.rail r).powered = true) (hn : n.rail = r)
    (hs : l.state = .active ∨ (∃ p, l.state = .starting p) ∨ ∃ a, l.state = .adjusting a)
    (hres : l.resolved .fault = { l with members := [n], charge := charge }) :
    s.begin.fault r kind =
      { s.begin with
        st := (s.faulted r kind).rewritten x.slot (l.stoppedAt .fault (some (r, kind)) 0) r (s.felled r)
          ((s.faultRecord r).counted kind) (s.ledger.stopping l charge x)
        rise := decide (charge < l.charge), marks := [(l.tenant, .lease x, .stopping)] } := by
  obtain ⟨-, -, hhandle, -, -⟩ := liveLease_slot hl
  have hrail : (s.faulted r kind).rail r = s.felled r := (rail_faulted s r r kind).trans (if_pos rfl)
  have hdown : ((s.faulted r kind).rail r).down = false := by
    rw [hrail]
    exact down_felled (down_of_powered hpowered)
  have hfell : (s.faulted r kind).felled r = s.felled r := by
    rw [State.felled, hrail, State.felled, if_pos hpowered]
    rfl
  have hrecord : (s.faulted r kind).felledRecord r = (s.faultRecord r).counted kind := by
    rw [State.felledRecord, hrail, State.felled, if_pos hpowered, faultRecord_faulted, if_pos rfl]
    rfl
  have hstop := stopLease_turns (h := { s.begin with st := s.faulted r kind }) (i := x.slot) (l := l) (cause := .fault)
    (fault := some (r, kind)) (k := 0) (m := n) (fun k => nomatch k) (by rw [hres]; rfl) (by rw [hn]; exact hdown)
    (fun j y hj hy => by rw [hres] at hy; cases j with | zero => cases hj | succ j => cases hy)
  have hmark : (s.faulted r kind).handleOf x.slot = x := hhandle
  rw [fault_of_running hr hl hs, hstop]
  simp only [hn, hfell, hrecord, hres, hmark]
  rfl

theorem ledger_stopping_committed {charge : Nat} (hle : charge ≤ l.charge) :
    (s.ledger.stopping l charge x).committed = s.committedTotal - l.charge := by
  show s.committedTotal - (l.charge - charge) - charge = _
  omega

end

/-- Settles O24: `faultLease` stops a running lease, whose rail falls already, and records the fault in a stop under way. -/
theorem faultStopsTheLease : Obligations.FaultStopsTheLease := by
  intro s r
  refine ⟨fun d hd hlt => ?_, fun i kind x l hrow hr hl => ⟨fun m n charge hpowered hms hm hvalues hle hqueue => ?_, fun stop hs => ?_⟩⟩
  · show Host.Outcome.next (rampDeadline r s) = _
    simp only [rampDeadline, hd, State.atDeadline_of_lt _ hlt]
  · have hres : l.resolved .fault = { l with members := [n], charge := charge } := resolved_sole hms hvalues
    have hn : n.rail = r := by
      obtain ⟨-, rfl, -⟩ | ⟨a, v, -, -, -, -, rfl⟩ := hvalues <;> exact hm
    have hruns : l.state = .active ∨ (∃ p, l.state = .starting p) ∨ ∃ a, l.state = .adjusting a := by
      obtain ⟨hs | hs, -, -⟩ | ⟨a, v, hs, -⟩ := hvalues
      · exact Or.inl hs
      · exact Or.inr (Or.inl hs)
      · exact Or.inr (Or.inr ⟨a, hs⟩)
    obtain ⟨hposts, hu⟩ := posted_of_rise (fault_of_sole (kind := kind) hr hl hpowered hn hruns hres) ⟨rfl, rfl, rfl⟩
      (fun h => hqueue (of_decide_eq_true h))
    obtain ⟨hslot, hothers⟩ := rewritten_slot (s := s.faulted r kind) hl hu
    obtain ⟨hrail', hrecord', -, hrails⟩ := rewritten_rail hu
    have hset := rewritten_setting hu
    rw [Lease.stoppedAt, hres] at hslot
    refine ⟨_, exec_faultRow hrow, hrail'.trans (if_pos hpowered), hrecord', ⟨hu.railConfig, fun q hq => ?_⟩, hslot, hothers,
      hu.chargedTotal, hu.committedTotal.trans (ledger_stopping_committed (x := x) hle),
      fun y => (hu.account y).trans (credited_accounts s l.tenant y _), hu.grantOrder, hset.feeds, hset.margin, hset.queue,
      hset.tiers, hset.owners, hset.service, hset.clock, hposts⟩
    obtain ⟨h1, h2⟩ := hrails q hq
    exact ⟨h1.trans ((rail_faulted s r q kind).trans (if_neg hq)), h2.trans ((faultRecord_faulted s r q kind).trans (if_neg hq))⟩
  · obtain ⟨hposts, hu⟩ := posted_of_eq (fault_of_stopping (kind := kind) hr hl hs) ⟨rfl, rfl, rfl⟩
    obtain ⟨hslot, hothers⟩ := rewritten_slot hl hu
    obtain ⟨hrail, hrecord, hrails⟩ := rewritten_rail hu
    have hset := rewritten_setting hu
    exact ⟨_, exec_faultRow hrow, hrail, hrecord, hrails, hslot, hothers, rewritten_budget hu, hset.queue, hset.tiers, hset.owners,
      hposts.keepsRings, hset.service, hset.clock⟩

end Sys2Proof.Machine

/-! PROOFS. The end of a FAULT stop (R11, R69, R130, R131): the backoff, and the lapse of a lease whose term has passed. -/

namespace Sys2Proof.Machine

/-! ### What the operations on leases leave alone -/

/-- The tenants' own blocks and the service: what operations on leases never write. -/
structure TenantSide where
  tenants     : Vector Tenant 4
  pool        : Vector (Option Context) 24
  lastGranted : TenantId
  service     : ServiceState

def State.tenantSide (s : State) : TenantSide :=
  { tenants := s.tenants, pool := s.pool, lastGranted := s.lastGranted, service := s.service }

/-- A happening carried on by operations on leases: the tenants' side stands, each record stays its tenant's, and no rail comes
down; no answer is added, and of each lease only its tenant is told. -/
structure Happening.CarriesOn (h g : Happening) : Prop where
  side    : g.st.tenantSide = h.st.tenantSide
  owner   : ∀ i, (g.st.lease? i).map Lease.tenant = (h.st.lease? i).map Lease.tenant
  up      : ∀ r, (h.st.rail r).down = false → (g.st.rail r).down = false
  answers : g.answers = h.answers
  marks   : h.marks <+: g.marks
  loose   : h.loose <+: g.loose
  told    : ∀ t y reason, (t, .lease y, reason) ∈ g.marks → (t, .lease y, reason) ∉ h.marks →
    (h.st.lease? y.slot).map Lease.tenant = some t

namespace Happening.CarriesOn
variable {h g k : Happening}

theorem refl (h : Happening) : h.CarriesOn h where
  side := rfl
  owner _ := rfl
  up _ hr := hr
  answers := rfl
  marks := List.prefix_rfl
  loose := List.prefix_rfl
  told _ _ _ hm hn := absurd hm hn

theorem trans (a : h.CarriesOn g) (b : g.CarriesOn k) : h.CarriesOn k where
  side := b.side.trans a.side
  owner i := (b.owner i).trans (a.owner i)
  up r hr := b.up r (a.up r hr)
  answers := b.answers.trans a.answers
  marks := a.marks.trans b.marks
  loose := a.loose.trans b.loose
  told t y reason hm hn := by
    by_cases hg : (t, Subject.lease y, reason) ∈ g.marks
    · exact a.told t y reason hg hn
    · exact (a.owner y.slot).symm.trans (b.told t y reason hm hg)

/-- A change of the state that writes no slot and brings no rail down. -/
theorem of_map {f : State → State} (hside : (f h.st).tenantSide = h.st.tenantSide) (hslots : (f h.st).slots = h.st.slots)
    (hup : ∀ r, (h.st.rail r).down = false → ((f h.st).rail r).down = false) : h.CarriesOn (h.map f) where
  side := hside
  owner i := congrArg (fun v => ((vget v i).lease).map Lease.tenant) hslots
  up := hup
  answers := rfl
  marks := List.prefix_rfl
  loose := List.prefix_rfl
  told _ _ _ hm hn := absurd hm hn

/-- A slot to free, a budget rise or an end noted. -/
theorem of_notes (h : Happening) {rise check : Bool} {more : List SlotId} :
    h.CarriesOn { h with rise := rise, check := check, loose := h.loose ++ more } :=
  { refl h with loose := List.prefix_append _ _ }

theorem of_putLease {i : SlotId} {l l' : Lease} (hl : h.st.lease? i = some l) (ht : l'.tenant = l.tenant) :
    h.CarriesOn (h.putLease i l') := by
  refine { refl h with owner := fun j => ?_ }
  have hslot : (h.putLease i l').st.slot j = if j = i then { h.st.slot i with lease := some l' } else h.st.slot j :=
    slot_setLease h.st i j l'
  by_cases hj : j = i
  · subst hj
    rw [State.lease?, hslot, if_pos rfl, hl]
    exact congrArg some ht
  · rw [State.lease?, hslot, if_neg hj]
    rfl

/-- The tenant of a lease is told of it. -/
theorem of_mark {t : TenantId} {i : SlotId} (ht : (h.st.lease? i).map Lease.tenant = some t) (r : Reason) :
    h.CarriesOn (h.mark t (.lease (h.st.handleOf i)) r) := by
  refine { refl h with marks := List.prefix_append _ _, told := fun t' y reason hm hn => ?_ }
  obtain hm | hm := List.mem_append.mp hm
  · exact absurd hm hn
  · cases List.mem_singleton.mp hm
    exact ht

theorem of_changeLease {i : SlotId} {l l' : Lease} (hl : h.st.lease? i = some l) (ht : l'.tenant = l.tenant) (r : Reason) :
    h.CarriesOn (h.changeLease i l' r) := by
  have hput : h.CarriesOn (h.putLease i { l' with count := l'.count + 1 }) := of_putLease hl ht
  have hslot : (h.putLease i { l' with count := l'.count + 1 }).st.slot i =
      { h.st.slot i with lease := some { l' with count := l'.count + 1 } } := (slot_setLease h.st i i _).trans (if_pos rfl)
  have hhandle : (h.putLease i { l' with count := l'.count + 1 }).st.handleOf i = h.st.handleOf i := by
    rw [State.handleOf, hslot, State.handleOf]
  have hmark := of_mark (h := h.putLease i { l' with count := l'.count + 1 }) (i := i) (t := l'.tenant)
    (by rw [State.lease?, hslot]; rfl) r
  rw [hhandle] at hmark
  exact hput.trans hmark

end Happening.CarriesOn

/-! ### Rails -/

/-- A change of rails that writes no other part and brings none down. -/
def KeepsUp (s u : State) : Prop :=
  u.tenantSide = s.tenantSide ∧ u.slots = s.slots ∧ ∀ r, (s.rail r).down = false → (u.rail r).down = false

theorem Happening.CarriesOn.of_keepsUp {h : Happening} {f : State → State} (k : KeepsUp h.st (f h.st)) : h.CarriesOn (h.map f) :=
  .of_map k.1 k.2.1 k.2.2

theorem enterFalling_keepsUp (s : State) (r : RailId) : KeepsUp s (s.enterFalling r) := by
  refine ⟨by rw [enterFalling_eq]; rfl, by rw [enterFalling_eq]; rfl, fun q hq => ?_⟩
  rw [rail_enterFalling]
  split
  · next h => exact down_felled (h ▸ hq)
  · exact hq

theorem fallAll_keepsUp (s : State) (ms : List Member) : KeepsUp s (s.fallAll ms) := by
  unfold State.fallAll
  induction ms generalizing s with
  | nil => exact ⟨rfl, rfl, fun _ h => h⟩
  | cons m ms ih =>
    obtain ⟨hside, hslots, hup⟩ := ih (s.enterFalling m.rail)
    obtain ⟨hside', hslots', hup'⟩ := enterFalling_keepsUp s m.rail
    exact ⟨hside.trans hside', hslots.trans hslots', fun r hr => hup r (hup' r hr)⟩

theorem enterRising_keepsUp (s : State) (r : RailId) (v c : Nat) : KeepsUp s (s.enterRising r v c) := by
  unfold State.enterRising
  split
  · next hoff =>
    refine ⟨rfl, rfl, fun q hq => ?_⟩
    rw [State.rail_setRail]
    split
    · rfl
    · exact hq
  · exact ⟨rfl, rfl, fun _ h => h⟩

theorem setMemberships_keepsUp (s : State) (ms : List Member) (h : Option Handle) : KeepsUp s (s.setMemberships ms h) := by
  obtain ⟨v, hv, hr⟩ := setMemberships_rails s ms h
  rw [hv]
  refine ⟨rfl, rfl, fun r hup => ?_⟩
  show (vget v r).down = false
  rw [hr]
  split <;> exact hup

/-! ### Leases -/

section
variable {h : Happening} {i : SlotId} {l : Lease}

theorem risen_carriesOn (h : Happening) : h.CarriesOn h.risen := { Happening.CarriesOn.refl h with side := rfl }

theorem giveBack_carriesOn (h : Happening) (i : SlotId) (l : Lease) :
    h.CarriesOn (h.giveBack i l) ∧ (h.giveBack i l).st.slots = h.st.slots := by
  unfold Happening.giveBack
  split <;> exact ⟨{ Happening.CarriesOn.refl h with side := rfl }, rfl⟩

theorem endLease_carriesOn (hl : h.st.lease? i = some l) (reason : EndReason) : h.CarriesOn (h.endLease i l reason) := by
  obtain ⟨hback, hslots⟩ := giveBack_carriesOn h i l
  have hfree := setMemberships_keepsUp (h.giveBack i l).st l.members none
  have hl' : ((h.giveBack i l).map fun s => s.setMemberships l.members none).st.lease? i = some l :=
    (congrArg (fun v => (vget v i).lease) (hfree.2.1.trans hslots)).trans hl
  have hchange : ((h.giveBack i l).map fun s => s.setMemberships l.members none).CarriesOn _ :=
    .of_changeLease (l' := { l with state := .ended reason, term := none }) hl' rfl .ended
  have hmap : (h.giveBack i l).CarriesOn ((h.giveBack i l).map fun s => s.setMemberships l.members none) := .of_keepsUp hfree
  unfold Happening.endLease
  exact ((hback.trans hmap).trans hchange).trans (.of_notes _)

theorem takeTurn_carriesOn (hl : h.st.lease? i = some l) (stop : StopRecord) : h.CarriesOn (h.takeTurn i l stop) := by
  have hput : h.CarriesOn (h.putLease i { l with state := .stopping { stop with inTurn := h.st.turnOf l.members } }) :=
    .of_putLease hl rfl
  unfold Happening.takeTurn
  simp only
  split
  · split
    · next m _ =>
      exact hput.trans (.of_keepsUp (enterFalling_keepsUp _ m.rail))
    · exact hput
  · exact hput

theorem enterSuspended_carriesOn (hl : h.st.lease? i = some l) : h.CarriesOn (h.enterSuspended i l) := by
  have hinsert : h.CarriesOn (h.map fun s => s.insertRestore (s.handleOf i) l.cls) := .of_map rfl rfl fun _ hr => hr
  refine hinsert.trans ?_
  unfold Happening.enterSuspended
  refine .of_changeLease (l := l) ?_ ?_ _
  · exact hl
  · rfl

theorem enterRetry_carriesOn (hl : h.st.lease? i = some l) (stop : StopRecord) : h.CarriesOn (h.enterRetry i l stop) := by
  have hjoin : h.CarriesOn
      (h.map fun s => ({ s with committedTotal := s.committedTotal + l.charge } : State).joinList (s.handleOf i)) := .of_map rfl rfl fun _ hr => hr
  refine hjoin.trans ?_
  unfold Happening.enterRetry
  refine .of_changeLease (l := l) ?_ ?_ _
  · exact hl
  · rfl

theorem settleStop_carriesOn (hl : h.st.lease? i = some l) (stop : StopRecord) : h.CarriesOn (h.settleStop i l stop) := by
  unfold Happening.settleStop
  split
  · exact enterRetry_carriesOn hl stop
  · have hcredit : h.CarriesOn (h.map fun s => s.creditHeld l.tenant l.charge).risen :=
      { Happening.CarriesOn.refl h with side := rfl }
    have hsuspend := hcredit.trans (enterSuspended_carriesOn (i := i) hl)
    simp only
    split
    · next l1 hl1 =>
      split
      · exact hsuspend.trans (endLease_carriesOn hl1 _)
      · exact hsuspend
    · exact hsuspend
  · exact endLease_carriesOn hl _

theorem beginStop_carriesOn (hl : h.st.lease? i = some l) (stop : StopRecord) : h.CarriesOn (h.beginStop i l stop) := by
  unfold Happening.beginStop
  split
  · exact settleStop_carriesOn hl stop
  · split
    · exact takeTurn_carriesOn hl stop
    · exact .of_keepsUp (fallAll_keepsUp _ _)

theorem resolved_tenant (l : Lease) (cause : StopCause) : (l.resolved cause).tenant = l.tenant := by
  unfold Lease.resolved
  split <;> rfl

theorem stopLease_carriesOn (hl : h.st.lease? i = some l) (cause : StopCause) (fault : Option (RailId × FaultKind)) :
    h.CarriesOn (h.stopLease i l cause fault) := by
  have hentry : h.CarriesOn (h.enterStopping i l cause fault) := by
    have hfall : h.CarriesOn (h.creditFall l.tenant l.charge (l.resolved cause).charge) := by
      rw [creditFall_eq]
      exact { Happening.CarriesOn.refl h with side := rfl }
    have hlist : ∀ g : Happening, g.CarriesOn (g.map fun s =>
        ({ s with committedTotal := s.committedTotal - (l.resolved cause).charge } : State).leaveList (s.handleOf i)) :=
      fun g => .of_map rfl rfl fun _ hr => hr
    refine (hfall.trans (hlist _)).trans ?_
    unfold Happening.enterStopping
    refine .of_changeLease (l := l) ?_ ?_ _
    · rw [creditFall_eq]
      exact hl
    · exact resolved_tenant l cause
  have hlease : (h.enterStopping i l cause fault).st.lease? i = some (l.stopped cause fault) := by
    rw [State.lease?, Happening.enterStopping, changeLease_slot, if_pos rfl]
    rfl
  rw [stopLease_eq]
  exact hentry.trans (beginStop_carriesOn hlease _)

theorem stopCause_carriesOn (hl : h.st.lease? i = some l) (cause : StopCause) : h.CarriesOn (h.stopCause i l cause) := by
  unfold Happening.stopCause
  split
  · exact endLease_carriesOn hl _
  · exact endLease_carriesOn hl _
  · exact endLease_carriesOn hl _
  · exact stopLease_carriesOn hl _ _
  · exact stopLease_carriesOn hl _ _
  · exact stopLease_carriesOn hl _ _
  · next stop _ =>
    split
    · have hput : h.CarriesOn (h.putLease i { l with state := .stopping { stop with mode := .unsequenced, inTurn := none } }) :=
        .of_putLease hl rfl
      refine hput.trans ?_
      unfold Happening.unsequence
      exact .of_keepsUp (fallAll_keepsUp _ _)
    · exact .refl h
  · exact .refl h

end

/-! ### The shed pass, the lapse and the scan -/

theorem shed_carriesOn (h : Happening) (v : Handle) : h.CarriesOn (h.shed v) := by
  unfold Happening.shed
  split
  · next l hl =>
    split
    · split
      · have hcredit : h.CarriesOn (h.map fun s => (s.creditAll l.tenant l.charge).leaveList v).risen :=
          { Happening.CarriesOn.refl h with side := rfl }
        exact hcredit.trans (enterSuspended_carriesOn (i := v.slot) hl)
      · exact endLease_carriesOn hl _
    · exact stopLease_carriesOn hl _ _
    · exact stopLease_carriesOn hl _ _
    · exact stopLease_carriesOn hl _ _
    · exact .of_map rfl rfl fun _ hr => hr
  · exact .of_map rfl rfl fun _ hr => hr

theorem shedPass_carriesOn (h : Happening) : h.CarriesOn h.shedPass := by
  unfold Happening.shedPass
  generalize h.st.grantOrder.length = n
  induction n generalizing h with
  | zero => exact .refl h
  | succ n ih =>
    unfold Happening.shedWhile
    split
    · split
      · exact (shed_carriesOn h _).trans (ih _)
      · exact .refl h
    · exact .refl h

theorem lapsePassed_carriesOn (h : Happening) (i : SlotId) : h.CarriesOn (h.lapsePassed i) := by
  unfold Happening.lapsePassed
  split
  · next l hl =>
    split
    · exact stopCause_carriesOn hl _
    · exact .refl h
  · exact .refl h

theorem lapseAndShed_carriesOn (h : Happening) (i : SlotId) : h.CarriesOn (h.lapseAndShed i) := by
  have hchosen : h.CarriesOn (h.map State.chosen) := .of_map rfl rfl fun _ hr => hr
  unfold Happening.lapseAndShed
  simp only
  split
  · exact hchosen.trans ((lapsePassed_carriesOn _ i).trans (shedPass_carriesOn _))
  · exact hchosen.trans ((shedPass_carriesOn _).trans (lapsePassed_carriesOn _ i))

theorem raiseMember_carriesOn (h : Happening) (l : Lease) (k : Nat) : h.CarriesOn (h.raiseMember l k) := by
  unfold Happening.raiseMember
  split
  · exact .of_keepsUp (enterRising_keepsUp _ _ _ _)
  · exact .refl h

theorem grantEntry_carriesOn {h : Happening} {e : QueueEntry} {l : Lease} (hl : h.st.liveLease e.handle = some l)
    (skipped : List Handle) : h.CarriesOn (h.grantEntry e l skipped) := by
  obtain ⟨-, -, -, -, hlease⟩ := liveLease_slot hl
  have hremove : h.CarriesOn (h.map fun s => s.removeEntry e.handle) := .of_map rfl rfl fun _ hr => hr
  have hchange := hremove.trans
    (.of_changeLease (h := h.map fun s => s.removeEntry e.handle) (l := l) (l' := { l with state := .starting (.rising 0) }) hlease rfl
      .starting)
  have hcharge : ∀ g : Happening,
      g.CarriesOn (g.map fun s => ((s.charge l.tenant l.charge).joinList e.handle).passSkipped skipped) := fun g => .of_map rfl rfl fun _ hr => hr
  refine (hchange.trans (hcharge _)).trans ?_
  exact raiseMember_carriesOn _ _ _

theorem walk_carriesOn (h : Happening) (skipped : List Handle) (q : List QueueEntry) : h.CarriesOn (h.walk skipped q) := by
  induction q generalizing h skipped with
  | nil => exact .refl h
  | cons e rest ih =>
    unfold Happening.walk
    split
    · next l hl =>
      split
      · simp only
        split
        · exact grantEntry_carriesOn hl skipped
        · exact (grantEntry_carriesOn hl skipped).trans (ih _ _)
      · split
        · exact .refl h
        · exact ih _ _
    · exact ih _ _

/-! ### An ended lease whose marker is posted keeps its slot (R18) -/

theorem grantEntry_otherSlots (h : Happening) (e : QueueEntry) (l : Lease) (skipped : List Handle) {j : SlotId}
    (hj : j ≠ e.handle.slot) : (h.grantEntry e l skipped).st.slot j = h.st.slot j := by
  have hraise : ∀ (g : Happening) (l : Lease) (k : Nat), (g.raiseMember l k).st.slots = g.st.slots := by
    intro g l k
    unfold Happening.raiseMember
    split
    · exact (enterRising_keepsUp _ _ _ _).2.1
    · rfl
  refine (congrArg (fun v => vget v j) (hraise _ _ _)).trans ?_
  exact (changeLease_slot _ e.handle.slot _ .starting j).trans (if_neg hj)

theorem walk_keeps_ended {i : SlotId} {y : Slot} {l : Lease} (hl : y.lease = some l) (he : l.live = false) (h : Happening)
    (hy : h.st.slot i = y) (skipped : List Handle) (q : List QueueEntry) : (h.walk skipped q).st.slot i = y := by
  induction q generalizing h skipped with
  | nil => exact hy
  | cons e rest ih =>
    unfold Happening.walk
    split
    · next l' hl' =>
      have hne : i ≠ e.handle.slot := by
        rintro rfl
        obtain ⟨hslot, hlive, -⟩ := liveLease_slot hl'
        rw [← hy, hslot] at hl
        cases hl
        rw [hlive] at he
        cases he
      have hgrant : (h.grantEntry e l' skipped).st.slot i = y := (grantEntry_otherSlots h e l' skipped hne).trans hy
      split
      · simp only
        split
        · exact hgrant
        · exact ih _ hgrant _
      · split
        · exact hy
        · exact ih _ hy _
    · exact ih _ hy _

theorem freeEnded_otherSlot (s : State) {i j : SlotId} (hj : i ≠ j) : (s.freeEnded j).slot i = s.slot i := by
  unfold State.freeEnded
  split
  · split
    · exact (State.slot_setSlot s j i _).trans (if_neg hj)
    · rfl
  · rfl

theorem freeEnded_marked (s : State) (j : SlotId) (x : Handle) : (s.freeEnded j).marked x = s.marked x := by
  unfold State.freeEnded
  split
  · split <;> rfl
  · rfl

theorem freeEnded_keeps_marked {s : State} {i : SlotId} (hm : s.marked (s.handleOf i) = true) (loose : List SlotId) :
    (loose.foldl State.freeEnded s).slot i = s.slot i := by
  induction loose generalizing s with
  | nil => rfl
  | cons j loose ih =>
    have hslot : (s.freeEnded j).slot i = s.slot i := by
      by_cases hj : i = j
      · rw [← hj, freeEnded_of_marked s i hm]
      · exact freeEnded_otherSlot s hj
    have hmarked : (s.freeEnded j).marked ((s.freeEnded j).handleOf i) = true := by
      rw [State.handleOf, hslot, freeEnded_marked]
      exact hm
    rw [List.foldl_cons, ih hmarked, hslot]

theorem side_tenant {s u : State} (h : u.tenantSide = s.tenantSide) (n : TenantId) : u.tenant n = s.tenant n :=
  congrArg (fun x : TenantSide => vget x.tenants n) h

/-- At the end of a happening outside drains and teardowns, an ended lease with a marker in the happening keeps its slot. -/
theorem settle_keeps_ended {s : State} {h : Happening} {i : SlotId} {y : Slot} {l : Lease} {n : TenantId} {reason : Reason}
    (hside : h.st.tenantSide = s.tenantSide) (hs : s.Steady) (ha : h.answers = []) (hy : h.st.slot i = y)
    (hl : y.lease = some l) (he : l.live = false) (hm : (n, .lease (h.st.handleOf i), reason) ∈ h.marks)
    (hh : (s.tenant n).hears = true) : h.settle.slot i = y := by
  obtain ⟨g, hg, hon, hyg⟩ : ∃ g, g = (if h.rise then h.scan else h) ∧ h.CarriesOn g ∧ g.st.slot i = y := by
    refine ⟨_, rfl, ?_⟩
    split
    · exact ⟨walk_carriesOn h [] h.st.queue, walk_keeps_ended hl he h hy [] h.st.queue⟩
    · exact ⟨.refl h, hy⟩
  have hside' : g.st.tenantSide = s.tenantSide := hon.side.trans hside
  have hservice : g.st.service.isDraining = false := by
    rw [show g.st.service = s.service from congrArg TenantSide.service hside']
    exact hs.1
  have hends : (if g.check then g.endings else g) = g := by
    rw [endings_of_no_closing g hservice fun m => by rw [side_tenant hside']; exact hs.2 m, ite_self]
  have hsettle : h.settle = g.loose.foldl State.freeEnded (g.st.postAll g.marks) := by
    unfold Happening.settle
    simp only [← hg, hends, Happening.flush, hon.answers, ha, List.foldl_nil, State.postAll]
  have hposted := onlyRings_postAll g.st g.marks
  have hhandle : (g.st.postAll g.marks).handleOf i = h.st.handleOf i := by
    rw [State.handleOf, State.handleOf, hposted.slot, hyg, hy]
  have hmarked : (g.st.postAll g.marks).marked ((g.st.postAll g.marks).handleOf i) = true := by
    rw [hhandle]
    exact marked_of_withMarks (postAll_tenant g.st g.marks n) (by rw [side_tenant hside']; exact hh) (hon.marks.subset hm)
  rw [hsettle, freeEnded_keeps_marked hmarked, hposted.slot, hyg]

/-! ### The backoff (R60, R130, R131) -/

/-- The ledger with a lease's charge committed again, at the tail of the grant order list (R60, R63). -/
def Ledger.rejoined (k : Ledger) (c : Nat) (x : Handle) : Ledger :=
  { k with committed := k.committed + c, order := k.order ++ [x] }

/-- A lease that waits for its retry. -/
def Lease.retrying (l : Lease) (d : Nat) : Lease := { l with state := .retryWait d, count := l.count + 1 }

section
variable {s : State} {r : RailId} {x : Handle} {l : Lease} {m : Member} {stop : StopRecord}

/-- The retry's deadline (R131). -/
def State.retryAt (s : State) (r : RailId) : Nat :=
  s.now + min 30000 ((s.config r).backoffBase * 2 ^ ((s.faultRecord r).count - 1))

/-- The state at the end of a one-member FAULT stop. -/
def State.retried (s : State) (x : Handle) (l : Lease) (r : RailId) : State :=
  s.rewritten x.slot (l.retrying (s.retryAt r)) r (s.downRail r false) (s.faultRecord r) (s.ledger.rejoined l.charge x)

/-- The happening in which the stop has come to RETRY_WAIT. -/
def State.retryHappening (s : State) (x : Handle) (l : Lease) (r : RailId) : Happening :=
  { s.begin with st := s.retried x l r, marks := [(l.tenant, .lease x, .retryWait)] }

theorem stopOutcome_of_fault (hms : l.members = [m]) (hm : m.rail = r) (hcause : stop.cause = .fault) (hs : s.Steady) :
    (s.lowered r).stopOutcome l stop = .retry := by
  have hlocked : (s.lowered r).anyLocked l.members = false := by
    rw [hms, State.anyLocked, List.any_cons, List.any_nil, hm, rail_lowered, if_pos rfl]
    rfl
  have hclosing : (((s.lowered r).tenant l.tenant).state == .closing) = false := beq_eq_false_iff_ne.mpr (hs.2 l.tenant)
  unfold State.stopOutcome
  simp only [if_pos hcause, hlocked, hclosing, Bool.false_eq_true, if_false]
  split
  · next hd => exact absurd hs.1 (by rw [show s.service = _ from hd]; exact Bool.noConfusion)
  · next hd => exact absurd hs.1 (by rw [show s.service = _ from hd]; exact Bool.noConfusion)
  · rfl

theorem enterRetry_eq (hl : s.liveLease x = some l) (hfaulted : stop.faulted = [r]) :
    ({ s.begin with st := s.lowered r } : Happening).enterRetry x.slot l stop = s.retryHappening x l r := by
  obtain ⟨-, -, hhandle, -, -⟩ := liveLease_slot hl
  have hmark : (s.lowered r).handleOf x.slot = x := hhandle
  have hbackoff : (s.lowered r).now + (s.lowered r).backoff stop.faulted = s.retryAt r := by
    unfold State.backoff State.retryAt backoffCap
    rw [hfaulted, List.map_cons, List.map_nil, List.foldl_cons, List.foldl_nil, Nat.zero_max]
    rfl
  have hstate : s.retried x l r =
      ({ s.lowered r with committedTotal := s.committedTotal + l.charge }.joinList x).setLease x.slot (l.retrying (s.retryAt r)) := by
    unfold State.retried State.rewritten
    rw [setFaultRecord_faultRecord]
    rfl
  unfold Happening.enterRetry State.retryHappening
  simp only [Happening.changeLease, Happening.map, hmark, hbackoff, hstate]
  exact congrArg (fun y => ({
    s.begin with
    st := ({ s.lowered r with committedTotal := s.committedTotal + l.charge }.joinList x).setLease x.slot
      (l.retrying (s.retryAt r))
    marks := [(l.tenant, Subject.lease y, Reason.retryWait)] } : Happening)) hhandle

/-- A one-member FAULT stop completes: RETRY_WAIT, then the lapse and the shed pass that it calls for (R11, R69). -/
theorem comeDown_retries (hr : (s.rail r).lease = some x) (hl : s.liveLease x = some l) (hms : l.members = [m])
    (hm : m.rail = r) (hstop : l.state = .stopping stop) (hcause : stop.cause = .fault) (hfaulted : stop.faulted = [r])
    (hs : s.Steady) :
    s.begin.comeDown r false =
      if s.termPassed l then (s.retryHappening x l r).lapseAndShed x.slot else (s.retryHappening x l r).shedPass := by
  have hdown : (s.lowered r).allDown l.members = true := by
    rw [hms, State.allDown, List.all_cons, List.all_nil, hm, rail_lowered, if_pos rfl]
    rfl
  have houtcome := stopOutcome_of_fault hms hm hcause hs
  rw [comeDown_completes hr hl hstop hdown]
  unfold Happening.completeStop Happening.settleStop
  simp only [houtcome, enterRetry_eq hl hfaulted]
  rfl

/-! ### The lapse after a FAULT stop (R11) -/

/-- The end of a lease that waits for its retry gives back its charge and its place. -/
theorem endLease_of_retry {h : Happening} {i : SlotId} {l : Lease} {d : Nat} (hs : l.state = .retryWait d) (reason : EndReason) :
    h.endLease i l reason =
      { h with
        st := ((h.st.creditAll l.tenant l.charge).leaveList (h.st.handleOf i)).leaseEnded i l reason
        rise := true, check := true, loose := h.loose ++ [i]
        marks := h.marks ++ [(l.tenant, .lease (h.st.handleOf i), .ended)] } := by
  have hback : h.giveBack i l =
      { h with st := (h.st.creditAll l.tenant l.charge).leaveList (h.st.handleOf i), rise := true } := by
    unfold Happening.giveBack
    simp only [hs]
    rfl
  have hmark : ((h.st.creditAll l.tenant l.charge).leaveList (h.st.handleOf i)).handleOf i = h.st.handleOf i := rfl
  rw [endLease_eq, hback]
  simp only [hmark]

theorem account_creditAll (s : State) (t n : TenantId) (c : Nat) :
    (s.creditAll t c).account n = if n = t then { s.account n with charged := (s.account n).charged - c } else s.account n := by
  rw [State.creditAll, State.subCharged, State.account_setAccount]
  split
  · next hn => rw [hn]; rfl
  · rfl

theorem slot_retried (hl : s.liveLease x = some l) (r : RailId) :
    (s.retried x l r).slot x.slot = { gen := x.gen, lease := some (l.retrying (s.retryAt r)) } ∧
      KeepsOtherSlots s (s.retried x l r) x.slot :=
  rewritten_slot hl (OnlyRings.refl _)

/-- The state in which the lease has ended with LAPSED. -/
def State.lapsedRetry (s : State) (x : Handle) (l : Lease) (r : RailId) : State :=
  (((s.retried x l r).chosen.creditAll l.tenant l.charge).leaveList x).leaseEnded x.slot (l.retrying (s.retryAt r)) .lapsed

/-- Where the charge fits, no victim is taken, and both orders of the lapse and the shed pass come to the same. -/
theorem lapseAndShed_fits (hl : s.liveLease x = some l) (hpassed : s.termPassed l = true)
    (hfits : s.committedTotal + l.charge ≤ s.available) :
    (s.retryHappening x l r).lapseAndShed x.slot =
      { s.begin with
        st := s.lapsedRetry x l r, rise := true, check := true, loose := [x.slot]
        marks := [(l.tenant, .lease x, .retryWait), (l.tenant, .lease x, .ended)] } := by
  obtain ⟨-, -, hhandle, -, -⟩ := liveLease_slot hl
  obtain ⟨hslot, -⟩ := slot_retried hl r
  have hmark : (s.retried x l r).chosen.handleOf x.slot = x := by
    rw [State.handleOf, State.chosen_slot, hslot]
  have hlease : (s.retried x l r).chosen.lease? x.slot = some (l.retrying (s.retryAt r)) := by
    rw [State.lease?, State.chosen_slot, hslot]
  have hshed : ((s.retryHappening x l r).map State.chosen).shedPass = (s.retryHappening x l r).map State.chosen :=
    shedPass_of_fits _ hfits
  have hlapse : ((s.retryHappening x l r).map State.chosen).lapsePassed x.slot =
      { s.begin with
        st := s.lapsedRetry x l r, rise := true, check := true, loose := [x.slot]
        marks := [(l.tenant, .lease x, .retryWait), (l.tenant, .lease x, .ended)] } := by
    have hpassed' : ((s.retryHappening x l r).map State.chosen).st.termPassed (l.retrying (s.retryAt r)) = true := hpassed
    have hlease' : ((s.retryHappening x l r).map State.chosen).st.lease? x.slot = some (l.retrying (s.retryAt r)) := hlease
    have hmark' : ((s.retryHappening x l r).map State.chosen).st.handleOf x.slot = x := hmark
    have hend := endLease_of_retry (h := (s.retryHappening x l r).map State.chosen) (i := x.slot)
      (l := l.retrying (s.retryAt r)) rfl .lapsed
    rw [hmark'] at hend
    unfold Happening.lapsePassed
    simp only [hlease', hpassed', if_true]
    exact hend
  have hfits' : (s.lapsedRetry x l r).committedTotal ≤ (s.lapsedRetry x l r).available := by
    show s.committedTotal + l.charge - l.charge ≤ s.available
    omega
  unfold Happening.lapseAndShed
  simp only [hshed, hlapse]
  split
  · exact shedPass_of_fits _ hfits'
  · rfl

end

/-- Settles O25: in RETRY_WAIT no victim is taken where the charge fits; past its term the lease lapses, whatever is shed, and the
marker of its retry keeps its slot. -/
theorem faultStopRetries : Obligations.FaultStopRetries := by
  intro s r d x l m stop hfalling hr hl hms hm hstop hcause hfaulted hcount hs
  have hlocks : s.locks r = false := decide_eq_false (Nat.not_lt.mpr hcount)
  have hcome := comeDown_retries hr hl hms hm hstop hcause hfaulted hs
  have hexec := exec_lowReached hfalling
  rw [hlocks] at hexec
  obtain ⟨hslot, hothers⟩ := slot_retried hl r
  have hrail : (s.retried x l r).rail r = { state := .off, drive := .held 0, currentLimit := 0, lease := some x } := by
    refine (State.rail_setRail_same s r _).trans ?_
    rw [State.downRail, hr]
    rfl
  have hrails : ∀ q, q ≠ r → (s.retried x l r).rail q = s.rail q := fun q hq => (State.rail_setRail s r q _).trans (if_neg hq)
  have hrecords : ∀ q, (s.retried x l r).faultRecord q = s.faultRecord q := fun q =>
    congrArg (fun v => vget v q) (setFaultRecord_faultRecord s r)
  refine ⟨fun hterm hfits => ?_, fun t ht hle hh => ⟨fun hfits hqueue => ?_, ?_⟩⟩
  · have hpassed : s.termPassed l = false := by
      unfold State.termPassed
      split
      · next t ht => exact decide_eq_false (Nat.not_le.mpr (hterm t ht))
      · rfl
    rw [hpassed, if_neg Bool.false_ne_true, shedPass_of_fits _ hfits] at hcome
    obtain ⟨hposts, hu⟩ := posted_of_eq (s := s) hcome ⟨rfl, rfl, rfl⟩
    have hset := rewritten_setting hu
    exact ⟨_, hexec, (hu.rail r).trans hrail, (hu.faultRecord r).trans (hrecords r),
      ⟨hu.railConfig, fun q hq => ⟨(hu.rail q).trans (hrails q hq), (hu.faultRecord q).trans (hrecords q)⟩⟩,
      (hu.slot _).trans hslot, fun j hj => (hu.slot j).trans (hothers j hj), hu.chargedTotal, hu.committedTotal, hu.accounts,
      hu.grantOrder, hset.feeds, hset.margin, hset.queue, hset.tiers, hset.owners, hset.service, hset.clock, hposts⟩
  · have hpassed : s.termPassed l = true := by
      rw [State.termPassed, ht]
      exact decide_eq_true hle
    rw [hpassed, if_pos rfl, lapseAndShed_fits hl hpassed hfits] at hcome
    have hhandle : (s.lapsedRetry x l r).handleOf x.slot = x := by
      refine (handleOf_leaseEnded _ _ _ _).trans ?_
      show (s.retried x l r).handleOf x.slot = x
      rw [State.handleOf, hslot]
    obtain ⟨hposts, hu⟩ := posted_of_steady (s := s) (congrArg Happening.st hcome) (congrArg Happening.marks hcome) ⟨rfl, rfl, rfl⟩ rfl
      (congrArg Happening.answers hcome) (fun _ => hqueue) hs
      (marksLoose_one (x := x) (l := l) (congrArg Happening.loose hcome) (by rw [hcome]; exact hhandle)
        (by rw [hcome]; exact List.mem_cons_of_mem _ (List.mem_singleton_self _)) hh)
    have hmember : ∀ q, q ∈ l.members.map Member.rail ↔ q = r := by
      intro q
      rw [hms, List.map_cons, List.map_nil, List.mem_singleton, hm]
    have hrail' : ∀ q, (s.begin.comeDown r false).settle.rail q =
        if q = r then { (s.retried x l r).rail q with lease := none } else (s.retried x l r).rail q := by
      intro q
      refine (hu.rail q).trans ((rail_leaseEnded _ _ _ _ q).trans ?_)
      exact if_congr (hmember q) rfl rfl
    refine ⟨_, hexec, (hrail' r).trans ?_, (hu.faultRecord r).trans (hrecords r),
      ⟨hu.railConfig, fun q hq => ⟨(hrail' q).trans ?_, (hu.faultRecord q).trans (hrecords q)⟩⟩,
      (hu.slot _).trans ((slot_setLease _ _ _ _).trans ?_),
      fun j hj => (hu.slot j).trans ((slot_setLease _ _ _ _).trans ((if_neg hj).trans (hothers j hj))), hu.chargedTotal,
      hu.committedTotal.trans (Nat.add_sub_cancel _ _), fun n => (hu.account n).trans (account_creditAll _ _ n _),
      hu.grantOrder.trans ?_, hu.feeds, hu.margin, hu.keepsQueue, hu.keepsTiers, hu.keepsOwners, hu.keepsService, hu.now,
      hu.pending, hposts⟩
    · rw [if_pos rfl, hrail]
    · rw [if_neg hq, hrails q hq]
    · rw [if_pos rfl]
      have hsame : (((s.retried x l r).chosen.creditAll l.tenant l.charge).leaveList x).slot x.slot =
          (s.retried x l r).slot x.slot := rfl
      have hcount : l.count + 1 + 1 = l.count + 2 := BitVec.add_assoc l.count 1 1
      rw [hsame, hslot, ← hcount]
      rfl
    · show (s.grantOrder ++ [x]).filter (· ≠ x) = s.grantOrder.filter (· ≠ x)
      rw [List.filter_append]
      simp
  · have hpassed : s.termPassed l = true := by
      rw [State.termPassed, ht]
      exact decide_eq_true hle
    rw [hpassed, if_pos rfl] at hcome
    obtain ⟨y, hy, hstate, hnone⟩ := lapseAndShed_lapses (s.retryHappening x l r) x.slot x.gen t _ _ hslot rfl ht hle
    have hon := lapseAndShed_carriesOn (s.retryHappening x l r) x.slot
    have howner : y.tenant = l.tenant := by
      have h := hon.owner x.slot
      rw [State.lease?, hy, State.lease?, show (s.retryHappening x l r).st.slot x.slot = _ from hslot] at h
      exact Option.some.inj h
    have hhandle : ((s.retryHappening x l r).lapseAndShed x.slot).st.handleOf x.slot = x := by rw [State.handleOf, hy]
    refine ⟨_, y, hexec, ?_, hstate, hnone, howner⟩
    rw [hcome]
    exact settle_keeps_ended (s := s) hon.side hs hon.answers hy rfl (by rw [Lease.live, hstate])
      (hon.marks.subset (by rw [hhandle]; exact List.mem_singleton_self _)) hh

end Sys2Proof.Machine

/-! PROOFS. STOP_SERVICE and EMERGENCY_STOP (R186, R188, R189): the stop of every live lease, and the end of the drain. -/

namespace Sys2Proof.Machine

/-! ### A stop cause that reaches every lease (log entry 8) -/

theorem resolve_congr {s u : State} {x : Handle} (h : u.slot x.slot = s.slot x.slot) : u.resolve x = s.resolve x := by
  unfold State.resolve State.lease?
  rw [h]

theorem live_of_waits {l : Lease} (h : l.waits = true) : l.live = true := by
  unfold Lease.waits at h
  unfold Lease.live
  split at h
  · next hs => rw [hs]
  · next hs => rw [hs]
  · cases h

/-- Where a stop cause has reached the slots of a list: the live leases there that satisfy the test are STOPPING, and the queue
names leases that wait, of which those in the list do not satisfy it. -/
structure Happening.Reached (g : Happening) (cause : StopCause) (p : Lease → Bool) (done : List SlotId) : Prop where
  stopped : ∀ i ∈ done, ∀ l, g.st.lease? i = some l → l.live = true → p l = true →
    ∃ stop, l.state = .stopping stop ∧ (cause = .emergency → stop.mode = .unsequenced)
  queued  : ∀ e ∈ g.st.queue, ∃ l, g.st.resolve e.handle = some l ∧ l.waits = true ∧ (e.handle.slot ∈ done → p l = false)

section
variable {cause : StopCause} {p : Lease → Bool}

/-- The stop cause reaches one more slot. -/
theorem stopSlot_reached (hf : cause ≠ .fault) (hs : cause ≠ .shed) {g : Happening} {done : List SlotId}
    (k : g.Reached cause p done) (i : SlotId) :
    (g.stopSlot cause p i).Reached cause p (i :: done) ∧ (g.stopSlot cause p i).st.service = g.st.service := by
  have hsame : (∀ l, g.st.lease? i = some l → (l.live && p l) = false) → g.Reached cause p (i :: done) := by
    intro hnone
    refine ⟨fun j hj l hl hlive hp => ?_, fun e he => ?_⟩
    · obtain rfl | hj := List.mem_cons.mp hj
      · exact absurd (hnone l hl) (by rw [hlive, hp]; exact Bool.noConfusion)
      · exact k.stopped j hj l hl hlive hp
    · obtain ⟨l, hl, hw, hdone⟩ := k.queued e he
      refine ⟨l, hl, hw, fun hmem => ?_⟩
      obtain hmem | hmem := List.mem_cons.mp hmem
      · obtain ⟨-, hlease, -⟩ := resolve_slot hl
        have := hnone l (hmem ▸ hlease)
        rwa [live_of_waits hw, Bool.true_and] at this
      · exact hdone hmem
  unfold Happening.stopSlot
  split
  · next l hl =>
    split
    · next hreach =>
      obtain ⟨hothers, -, ⟨l', hl', hstop⟩, hqueue, hservice⟩ := stopCause_effect g i l cause hl hf hs
      refine ⟨⟨fun j hj y hy hlive hp => ?_, fun e he => ?_⟩, hservice⟩
      · by_cases hji : j = i
        · subst hji
          rw [hl'] at hy
          cases hy
          exact hstop hlive
        · rw [State.lease?, hothers j hji] at hy
          exact k.stopped j ((List.mem_cons.mp hj).resolve_left hji) y hy hlive hp
      · have hmem : e ∈ g.st.queue := by
          rw [hqueue] at he
          split at he
          · exact List.mem_of_mem_filter he
          · exact he
        obtain ⟨y, hy, hw, hdone⟩ := k.queued e hmem
        obtain ⟨-, hlease, hhandle⟩ := resolve_slot hy
        have hne : e.handle.slot ≠ i := by
          rintro rfl
          rw [hlease] at hl
          cases hl
          rw [hqueue, if_pos hw, hhandle] at he
          exact of_decide_eq_true (List.mem_filter.mp he).2 rfl
        exact ⟨y, (resolve_congr (hothers _ hne)).trans hy, hw, fun hm => hdone ((List.mem_cons.mp hm).resolve_left hne)⟩
    · next hreach =>
      refine ⟨hsame fun y hy => ?_, rfl⟩
      rw [hl] at hy
      cases hy
      exact Bool.eq_false_iff.mpr hreach
  · next hl =>
    refine ⟨hsame fun y hy => ?_, rfl⟩
    rw [hl] at hy
    cases hy

theorem foldl_stopSlot_reached (hf : cause ≠ .fault) (hs : cause ≠ .shed) (slots : List SlotId) {g : Happening}
    {done : List SlotId} (k : g.Reached cause p done) :
    (slots.foldl (Happening.stopSlot cause p) g).Reached cause p (slots.reverse ++ done) ∧
      (slots.foldl (Happening.stopSlot cause p) g).st.service = g.st.service := by
  induction slots generalizing g done with
  | nil => exact ⟨k, rfl⟩
  | cons i slots ih =>
    obtain ⟨hreached, hservice⟩ := stopSlot_reached hf hs k i
    obtain ⟨hall, hservice'⟩ := ih hreached
    rw [List.foldl_cons, List.reverse_cons, List.append_assoc]
    exact ⟨hall, hservice'.trans hservice⟩

/-- Afterwards every live lease that satisfies the test is STOPPING, and no entry of the queue names one. -/
theorem stopAll_reached (hf : cause ≠ .fault) (hs : cause ≠ .shed) {h : Happening}
    (hq : ∀ e ∈ h.st.queue, ∃ l, h.st.resolve e.handle = some l ∧ l.waits = true) :
    (∀ i l, (h.stopAll cause p).st.lease? i = some l → l.live = true → p l = true →
      ∃ stop, l.state = .stopping stop ∧ (cause = .emergency → stop.mode = .unsequenced)) ∧
    (∀ e ∈ (h.stopAll cause p).st.queue, ∃ l, (h.stopAll cause p).st.resolve e.handle = some l ∧ l.waits = true ∧ p l = false) ∧
    (h.stopAll cause p).st.service = h.st.service := by
  have hstart : (h.map State.chosen).Reached cause p [] := by
    refine ⟨fun i hi => absurd hi List.not_mem_nil, fun e he => ?_⟩
    obtain ⟨l, hl, hw⟩ := hq e he
    exact ⟨l, hl, hw, fun hm => absurd hm List.not_mem_nil⟩
  have hall : ∀ i, i ∈ freeOrder h.st.choices Fin.val (List.finRange 16) := fun i =>
    (mem_freeOrder _ _ _ _).mpr (List.mem_finRange i)
  unfold Happening.stopAll
  generalize freeOrder h.st.choices Fin.val (List.finRange 16) = slots at hall ⊢
  obtain ⟨hreached, hservice⟩ := foldl_stopSlot_reached hf hs slots hstart
  have hmem : ∀ i, i ∈ slots.reverse ++ [] := by
    intro i
    rw [List.append_nil, List.mem_reverse]
    exact hall i
  refine ⟨fun i l hl => hreached.stopped i (hmem i) l hl, fun e he => ?_, hservice⟩
  obtain ⟨l, hl, hw, hp⟩ := hreached.queued e he
  exact ⟨l, hl, hw, hp (hmem _)⟩

end

/-! ### The end of a drain (R189) -/

theorem onlyRings_drainEnd {h : Happening} {reason : DrainReason} {w : Bool} (hs : h.st.service = .draining reason w) :
    OnlyRings (if h.st.anyLive then h.st else { h.st with service := .configuring }) h.drainEnd.st := by
  unfold Happening.drainEnd
  simp only [hs]
  split
  · exact .refl _
  · split
    · split
      · exact onlyRings_answer _ _ _ _ _ _
      · exact .refl _
    · exact .refl _

/-- A drain with an empty queue goes on exactly while a live lease is left. -/
theorem settle_of_drain {h : Happening} {reason : DrainReason} {w : Bool} (hs : h.st.service = .draining reason w)
    (hq : h.st.queue = []) (hc : h.check = true) :
    h.settle.queue = [] ∧ (∀ j l, h.settle.lease? j = some l → h.st.lease? j = some l) ∧
      h.settle.service = if h.settle.anyLive then .draining reason w else .configuring := by
  have hsettle : h.settle = h.endings.flush := by
    unfold Happening.settle
    simp only [scan_empty h hq, ite_self, hc, if_true]
  have hends : OnlyRings (if h.st.anyLive then h.st else { h.st with service := .configuring }) h.endings.st :=
    (onlyRings_drainEnd hs).trans (onlyRings_teardowns _ _)
  obtain ⟨hqueue, hservice, hleases, hlive⟩ := flush_effect h.endings
  have hlive' : h.endings.st.anyLive = h.st.anyLive := by
    refine hends.anyLive.trans ?_
    split <;> rfl
  rw [hsettle]
  refine ⟨?_, fun j l hl => ?_, ?_⟩
  · rw [hqueue, hends.queue]
    split <;> exact hq
  · have hl' := hleases j l hl
    rw [hends.lease?] at hl'
    split at hl' <;> exact hl'
  · rw [hservice, hends.service, hlive, hlive']
    split
    · exact hs
    · rfl

/-- A drain begun with every live lease stopped (R186, R188). -/
theorem settle_stopAll_drains {s : State} {reason : DrainReason} {w : Bool} {cause : StopCause} (hf : cause ≠ .fault)
    (hsh : cause ≠ .shed) (hs : s.service = .draining reason w)
    (hq : ∀ e ∈ s.queue, ∃ l, s.resolve e.handle = some l ∧ l.waits = true) :
    let u := (s.begin.stopAll cause fun _ => true).checked.settle
    u.queue = [] ∧
      (∀ j l, u.lease? j = some l → l.live = true →
        ∃ stop, l.state = .stopping stop ∧ (cause = .emergency → stop.mode = .unsequenced)) ∧
      u.service = if u.anyLive then .draining reason w else .configuring := by
  obtain ⟨hstopped, hqueued, hservice⟩ := stopAll_reached (p := fun _ => true) hf hsh (h := s.begin) hq
  generalize s.begin.stopAll cause (fun _ => true) = g at hstopped hqueued hservice ⊢
  have hempty : g.checked.st.queue = [] := by
    refine List.eq_nil_iff_forall_not_mem.mpr fun e he => ?_
    obtain ⟨l, -, -, hp⟩ := hqueued e he
    cases hp
  obtain ⟨hqueue, hleases, hend⟩ := settle_of_drain (h := g.checked) (hservice.trans hs) hempty rfl
  exact ⟨hqueue, fun j l hl hlive => hstopped j l (hleases j l hl) hlive rfl, hend⟩

theorem openable_of_not_idle {s : State} (h : s.service ≠ .idle) : s.openable = true := by
  unfold State.openable
  split
  · next hs => exact absurd hs h
  · rfl

theorem exec_stopService {s : State} {c : CtxId} (h : s.takenCommand admin = some (c, .stopService))
    (hs : s.service = .serving) :
    exec .stopService s =
      .next (({ s.setStage c .draining with service := .draining .serviceStopped true } : State).begin.stopAll .serviceStopped
        fun _ => true).checked.settle := by
  show Host.Outcome.next (stopService s) = _
  simp only [stopService, h, State.stopServiceBody, if_pos hs]

/-- Settles O42. -/
theorem drainLeavesOnlyStoppingLeases : Obligations.DrainLeavesOnlyStoppingLeases := by
  rintro s i (⟨rfl, hs⟩ | ⟨rfl, hs, c, H⟩) hq
  · have hexec : exec .emergencyStop s = .next (s.recordAction .emergencyStop .done).emergency := by
      show Host.Outcome.next (emergencyStop s) = _
      rw [emergencyStop, if_pos (openable_of_not_idle hs)]
    obtain ⟨hqueue, hstopped, hend⟩ := settle_stopAll_drains
      (s := { s.recordAction .emergencyStop .done with service := .draining .emergency s.service.waiting })
      (cause := .emergency) (fun k => nomatch k) (fun k => nomatch k) rfl hq
    refine ⟨_, hexec, hqueue, fun j l hl hlive => ?_, hend.trans ?_⟩
    · obtain ⟨stop, hstop, hmode⟩ := hstopped j l hl hlive
      exact ⟨stop, hstop, fun _ => hmode rfl⟩
    · simp only [if_true]
      rfl
  · have hrings : OnlyRings s (s.setStage c .draining) := onlyRings_setStage s c .draining
    obtain ⟨hqueue, hstopped, hend⟩ := settle_stopAll_drains
      (s := { s.setStage c .draining with service := .draining .serviceStopped true })
      (cause := .serviceStopped) (fun k => nomatch k) (fun k => nomatch k) rfl fun e he => by
        rw [show ({ s.setStage c .draining with service := .draining .serviceStopped true } : State).queue = s.queue from
          hrings.queue] at he
        obtain ⟨l, hl, hw⟩ := hq e he
        exact ⟨l, (resolve_congr (hrings.slot _)).trans hl, hw⟩
    refine ⟨_, exec_stopService H hs, hqueue, fun j l hl hlive => ?_, hend.trans ?_⟩
    · obtain ⟨stop, hstop, -⟩ := hstopped j l hl hlive
      exact ⟨stop, hstop, fun k => nomatch k⟩
    · simp only [reduceCtorEq, if_false]

/-! ### A drain of an empty table (R189) -/

/-- A STOP_SERVICE's own state, once its context waits for the drain. -/
def State.drainBegun (s : State) (c : CtxId) : State :=
  { s.setStage c .draining with service := .draining .serviceStopped true }

/-- The state at the end of its drain. -/
def State.drainOver (s : State) (c : CtxId) : State := { (s.drainBegun c).chosen with service := .configuring }

theorem findContext_drainBegun {s : State} {c : CtxId} {x : Context} (hx : s.context c = some x) (ht : x.tenant = admin)
    (hnone : ∀ d y, s.context d = some y → y.stage ≠ .draining) {u : State}
    (hu : ∀ d, u.context d = (s.setStage c .draining).context d) :
    u.findContext admin Stage.isDraining = some (c, { x with stage := .draining }) := by
  have hset : ∀ d, u.context d = if d = c then some { x with stage := .draining } else s.context d := by
    intro d
    rw [hu, setStage_eq hx, State.context_setContext]
  refine findContext_unique (by rw [hset, if_pos rfl]) ht rfl fun e y hy _ hp => ?_
  by_contra he
  rw [hset, if_neg he] at hy
  refine hnone e y hy ?_
  unfold Stage.isDraining at hp
  split at hp
  · assumption
  · cases hp

theorem finished_tenant_state (s : State) (c : CtxId) (x : Context) (n : TenantId) :
    ((s.finished c x).tenant n).state = (s.tenant n).state := by
  unfold State.finished State.setUnderWay
  rw [State.tenant_setTenant]
  split
  · next h => rw [h]; rfl
  · rfl

/-- With no live lease a STOP_SERVICE ends its own drain and finishes OK. -/
theorem settle_drainBegun {s : State} {c : CtxId} {x : Context} (hx : s.context c = some x) (ht : x.tenant = admin)
    (hl : s.anyLive = false) (hn : ∀ n, (s.tenant n).state ≠ .closing)
    (hnone : ∀ d y, s.context d = some y → y.stage ≠ .draining) :
    ((s.drainBegun c).begin.stopAll .serviceStopped fun _ => true).checked.settle =
      (s.drainOver c).finish c { x with stage := .draining }
        (completionOf c { x with stage := .draining } .ok .none none 0) [] := by
  have hrings : OnlyRings s (s.setStage c .draining) := onlyRings_setStage s c .draining
  have hdead : (s.drainBegun c).anyLive = false := hrings.anyLive.trans hl
  have hstop : (s.drainBegun c).begin.stopAll .serviceStopped (fun _ => true) = (s.drainBegun c).begin.map State.chosen :=
    stopAll_of_none _ _ _ fun i l hi => by simp [not_live_of_not_anyLive hdead i l hi]
  have hcontext : (s.drainOver c).context c =
      some { x with stage := .draining } := by
    refine (congrArg (fun u : State => u.context c) (setStage_eq hx _)).trans ?_
    rw [State.context_setContext, if_pos rfl]
  have hfind := findContext_drainBegun hx ht hnone (u := s.drainOver c) fun _ => rfl
  have hdrain : ((s.drainBegun c).begin.map State.chosen).checked.drainEnd =
      (((s.drainBegun c).begin.map State.chosen).checked.map fun s => { s with service := .configuring }).reply c .ok :=
    drainEnd_waiting _ .serviceStopped c _ rfl hdead hfind
  have hreply : (((s.drainBegun c).begin.map State.chosen).checked.map fun s => { s with service := .configuring }).reply c .ok =
      _ := answer_eq _ c _ hcontext .ok .none none 0
  have htenants : ∀ n, (s.drainOver c).tenant n = s.tenant n := by
    intro n
    rw [State.drainOver, State.drainBegun, setStage_eq hx]
    rfl
  have hend := endings_eq_drainEnd ((s.drainBegun c).begin.map State.chosen).checked
    (by rw [hdrain, hreply]; rfl) (by
      intro n
      rw [hdrain, hreply]
      show (((s.drainOver c).finished c { x with stage := .draining }).tenant n).state ≠ .closing
      rw [finished_tenant_state, htenants]
      exact hn n)
  rw [hstop, settle_of_check _ rfl rfl, hend, hdrain, hreply]
  rfl

theorem finishes_of_stage {s v u : State} {t : TenantId} {c : CtxId} {x : Context} {stage : Stage} {status : Status} {detail : Detail}
    {handle : Option Handle} {charge : Nat} {marks : List (TenantId × Subject × Reason)} (hx : s.context c = some x)
    (hc : ∀ d, v.context d = if d = c then some { x with stage := stage } else s.context d) (ht : v.tenants = s.tenants)
    (hg : v.lastGranted = s.lastGranted) (h : Finishes v u t c status detail handle charge marks) :
    Finishes s u t c status detail handle charge marks := by
  obtain ⟨y, hy, hend, hothers, hself, htenants, hlast⟩ := h
  rw [hc, if_pos rfl] at hy
  cases hy
  have htenant : ∀ n, v.tenant n = s.tenant n := fun n => congrArg (vget · n) ht
  refine ⟨x, hx, hend, fun d hd => ?_, ?_, fun n hn => ?_, hlast.trans hg⟩
  · rw [hothers d hd, hc, if_neg hd]
  · rw [hself, htenant]
  · rw [htenants n hn, htenant]

/-- Settles O41. -/
theorem drainOfAnEmptyTableEndsAtOnce : Obligations.DrainOfAnEmptyTableEndsAtOnce := by
  intro s hl hn
  refine ⟨fun c H hs hnone => ?_, fun hs => ?_⟩
  · obtain ⟨x, hx, ht, -, -⟩ := takenCommand_context H.1
    have hexec : exec .stopService s = .next _ := exec_stopService H.1 hs
    have hsettle := settle_drainBegun hx ht hl hn hnone
    have hset := setStage_eq hx .draining
    have hctx : ∀ d, (s.drainOver c).context d =
        if d = c then some { x with stage := .draining } else s.context d := by
      intro d
      refine (congrArg (fun u : State => u.context d) hset).trans ?_
      rw [State.context_setContext]
    have htenants : (s.drainOver c).tenants = s.tenants :=
      (congrArg State.tenants hset).trans rfl
    have hh : ((s.drainOver c).tenant x.tenant).hears = true := by
      rw [show (s.drainOver c).tenant x.tenant = s.tenant x.tenant from
        congrArg (vget · x.tenant) htenants, ht]
      exact H.2
    have hfin := finishes_finish _ c { x with stage := .draining } ((hctx c).trans (if_pos rfl)) hh .ok .none none 0 []
    have hrings := onlyRings_finish (s.drainOver c) c
      { x with stage := .draining } (completionOf c { x with stage := .draining } .ok .none none 0) []
    have hfin' := finishes_of_stage hx hctx htenants ((congrArg State.lastGranted hset).trans rfl) hfin
    rw [show ({ s.setStage c .draining with service := .draining .serviceStopped true } : State) = s.drainBegun c from rfl,
      hsettle] at hexec
    have hover : OnlyRings { s.chosen with service := .configuring } (s.drainOver c) := by
      unfold State.drainOver State.drainBegun
      rw [hset]
      rfl
    have hu := hover.trans hrings
    generalize (s.drainOver c).finish c _ _ [] = u at hexec hfin' hu
    exact ⟨u, hexec, hu.service, hu.controlRead, hu.descriptorBase, hu.lastAction, hu.outcome, hu.startError, hu.keepsLeases,
      hu.keepsBudget, hu.keepsQueue, hu.keepsRails, hu.keepsTiers, hu.keepsOwners, hu.now, hu.pending, by rw [← ht]; exact hfin'⟩
  · have hopen : s.openable = true := openable_of_not_idle (by obtain h | h := hs <;> rw [h] <;> exact fun k => nomatch k)
    have hwait : s.service.waiting = false := by obtain h | h := hs <;> rw [h] <;> rfl
    exact ⟨_, exec_emergencyStop_of_empty hopen hwait hl hn, rfl, rfl, rfl, rfl, rfl, rfl, rfl, ⟨rfl, rfl, rfl, rfl, rfl, rfl⟩,
      ⟨rfl, rfl, rfl⟩, ⟨rfl, rfl, rfl⟩, rfl, rfl, ⟨rfl, rfl, rfl⟩, rfl, rfl⟩

end Sys2Proof.Machine

/-! PROOFS. CLOSE_TENANT of a tenant that holds nothing (R158): a teardown that ends in its own happening. -/

namespace Sys2Proof.Machine

/-! ### The steps of a teardown that finds nothing (R158) -/

theorem context_of_not_holds {s : State} {n : TenantId} (h : s.holdsContext n = false) (d : CtxId) (y : Context)
    (hy : s.context d = some y) : y.tenant ≠ n := by
  unfold State.holdsContext at h
  rw [List.any_eq_false] at h
  have hd := h d (List.mem_finRange d)
  simp only [hy] at hd
  exact fun ht => hd (beq_iff_eq.mpr ht)

theorem live_of_not_holds {s : State} {n : TenantId} (h : s.holdsLease n = false) (i : SlotId) (l : Lease)
    (hl : s.lease? i = some l) : (l.live && l.tenant == n) = false := by
  unfold State.holdsLease at h
  rw [List.any_eq_false] at h
  have hi := h i (List.mem_finRange i)
  simp only [hl] at hi
  exact Bool.eq_false_iff.mpr hi

theorem discardQueue_of_empty {h : Happening} {n : TenantId} (he : (h.st.tenant n).outbound = []) : h.discardQueue n = h := by
  have hsame : ({ h.st.tenant n with outbound := [] } : Tenant) = h.st.tenant n := by rw [← he]
  unfold Happening.discardQueue
  simp only [he, List.foldl_nil, Happening.map, hsame, setTenant_tenant]

theorem mapStages_of_none {s : State} {n : TenantId} (h : ∀ d y, s.context d = some y → y.tenant ≠ n) (f : Stage → Stage) :
    s.mapStages n f = s := by
  have hpool : (s.mapStages n f).pool = s.pool := by
    refine vget_ext fun d => ?_
    refine (mapStages_context s n f d).trans ?_
    show Option.map _ (s.context d) = s.context d
    cases hd : s.context d with
    | none => rfl
    | some y => rw [Option.map_some, if_neg (h d y hd)]
  show { s with pool := (s.mapStages n f).pool } = s
  rw [hpool]

theorem findContext_of_none {s : State} {n : TenantId} (h : ∀ d y, s.context d = some y → y.tenant ≠ n) (p : Stage → Bool) :
    s.findContext n p = none := by
  cases hf : s.findContext n p with
  | none => rfl
  | some found =>
    obtain ⟨hy, ht, -⟩ := findContext_some (c := found.1) (x := found.2) hf
    exact absurd ht (h _ _ hy)

theorem dropContexts_of_idle {s : State} {n : TenantId} (h : ∀ d y, s.context d = some y → y.tenant ≠ n)
    (hw : (s.tenant n).writer = none) : s.dropContexts n = s := by
  have hsame : ({ s.tenant n with writer := (s.tenant n).writer.map WriterAccess.dropped } : Tenant) = s.tenant n := by
    rw [hw, Option.map_none, ← hw]
  unfold State.dropContexts
  simp only [findContext_of_none h, mapStages_of_none h, hsame, setTenant_tenant]

theorem withdrawAll_of_none {h : Happening} {n : TenantId}
    (ho : ∀ r o, (h.st.owned r).offer = some o → o.offerer ≠ n ∧ o.target ≠ n) : h.withdrawAll n = h.map State.chosen := by
  have hone : ∀ r, (h.map State.chosen).withdrawFor n r = h.map State.chosen := by
    intro r
    unfold Happening.withdrawFor
    split
    · next o hr =>
      obtain ⟨hofferer, htarget⟩ := ho r o hr
      rw [show o.other n = none by rw [Offer.other, if_neg hofferer, if_neg htarget]]
    · rfl
  unfold Happening.withdrawAll
  generalize freeOrder h.st.choices Fin.val (List.finRange 12) = rails
  induction rails with
  | nil => rfl
  | cons r rails ih => rw [List.foldl_cons, hone, ih]

/-! ### The end of one teardown (R158) -/

theorem teardownEnd_of_not_closing {h : Happening} {m : TenantId} (hm : (h.st.tenant m).state ≠ .closing) : h.teardownEnd m = h := by
  unfold Happening.teardownEnd
  exact if_neg fun k => hm k.1

theorem foldl_teardownEnd_of_none {h : Happening} (ns : List TenantId) (hn : ∀ m ∈ ns, (h.st.tenant m).state ≠ .closing) :
    ns.foldl Happening.teardownEnd h = h := by
  induction ns with
  | nil => rfl
  | cons m ns ih =>
    rw [List.foldl_cons, teardownEnd_of_not_closing (hn m List.mem_cons_self)]
    exact ih fun k hk => hn k (List.mem_cons_of_mem _ hk)

/-- Where one tenant is CLOSING and its teardown ends, nothing else does. -/
theorem endings_of_one_closing {h : Happening} {n : TenantId} (hd : h.st.service.isDraining = false)
    (hothers : ∀ m, m ≠ n → (h.st.tenant m).state ≠ .closing) (hend : ∀ m, ((h.teardownEnd n).st.tenant m).state ≠ .closing) :
    h.endings = h.teardownEnd n := by
  have hdrain : h.drainEnd = h := by
    unfold Happening.drainEnd
    split
    · next hs => rw [hs] at hd; cases hd
    · rfl
  have hfold : ∀ ns : List TenantId, n ∈ ns → ns.foldl Happening.teardownEnd h = h.teardownEnd n := by
    intro ns
    induction ns with
    | nil => exact fun k => absurd k List.not_mem_nil
    | cons m ns ih =>
      intro hn
      rw [List.foldl_cons]
      by_cases hm : m = n
      · rw [hm]
        exact foldl_teardownEnd_of_none ns fun k _ => hend k
      · rw [teardownEnd_of_not_closing (hothers m hm)]
        exact ih ((List.mem_cons.mp hn).resolve_left (Ne.symm hm))
  rw [Happening.endings, hdrain]
  exact hfold _ (List.mem_finRange n)

/-! ### CLOSE_TENANT -/

theorem exec_closeTenant {s : State} {c : CtxId} {n : TenantId} (H : s.takenCommand admin = some (c, .closeTenant n.val))
    (hs : s.service ≠ .idle) (hn : n ≠ admin) (hh : (s.tenant n).hears = true) :
    exec .closeTenant s = .next (s.begin.tearDown c n).settle := by
  show Host.Outcome.next (closeTenant s) = _
  simp only [closeTenant, H, State.closeTenantBody, openable_of_not_idle hs, numbered_val, if_neg hn, hh, Bool.true_eq_false, if_false]

theorem hears_of_open {x : Tenant} (h : x.state = .isOpen ∨ x.state = .broken) : x.hears = true := by
  unfold Tenant.hears
  obtain h | h := h <;> rw [h]

/-- The state after the first step of a teardown (R158). -/
def State.closingBegun (s : State) (c : CtxId) (n : TenantId) : State := (s.setStage c (.tearing n)).beginClosing n

section
variable {s : State} {c : CtxId} {n : TenantId} {x : Context}

theorem closingBegun_context (hx : s.context c = some x) (d : CtxId) :
    (s.closingBegun c n).context d = if d = c then some { x with stage := .tearing n } else s.context d := by
  unfold State.closingBegun State.beginClosing
  rw [setStage_eq hx]
  exact State.context_setContext s c d _

theorem closingBegun_tenant (hx : s.context c = some x) (m : TenantId) :
    (s.closingBegun c n).tenant m =
      if m = n then
        { s.tenant n with
          state := .closing, scanPending := false, underWay := false, stalled := false, recheck := none, intPending := false }
      else s.tenant m := by
  unfold State.closingBegun State.beginClosing
  rw [setStage_eq hx, State.tenant_setTenant]
  rfl

theorem onlyRings_closingBegun (s : State) (c : CtxId) (n : TenantId) : OnlyRings s (s.closingBegun c n) :=
  (onlyRings_setStage s c _).trans (onlyRings_setTenant _ n _)

/-- A teardown of a tenant that holds nothing: only its first step and two open points are left (log entry 8). -/
theorem tearDown_idle (hx : s.context c = some x) (ht : x.tenant ≠ n) (hl : s.holdsLease n = false) (hc : s.holdsContext n = false)
    (hout : (s.tenant n).outbound = []) (hw : (s.tenant n).writer = none)
    (ho : ∀ r o, (s.owned r).offer = some o → o.offerer ≠ n ∧ o.target ≠ n) :
    s.begin.tearDown c n = { s.begin with st := (s.closingBegun c n).chosen.chosen, check := true } := by
  have hrings := onlyRings_closingBegun s c n
  have htenant : (s.closingBegun c n).tenant n = _ := (closingBegun_tenant hx n).trans (if_pos rfl)
  have hnone : ∀ d y, (s.closingBegun c n).context d = some y → y.tenant ≠ n := by
    intro d y hy
    rw [closingBegun_context hx] at hy
    split at hy
    · cases hy
      exact ht
    · exact context_of_not_holds hc d y hy
  have hqueue : ({ s.begin with st := s.closingBegun c n } : Happening).discardQueue n = { s.begin with st := s.closingBegun c n } :=
    discardQueue_of_empty (by rw [show (({ s.begin with st := s.closingBegun c n } : Happening).st.tenant n) = _ from htenant]
                              exact hout)
  have hdrop : (s.closingBegun c n).dropContexts n = s.closingBegun c n := dropContexts_of_idle hnone (by rw [htenant]; exact hw)
  have hstop : ({ s.begin with st := s.closingBegun c n } : Happening).stopAll .tenantClosed (fun l => l.tenant == n) =
      { s.begin with st := (s.closingBegun c n).chosen } :=
    stopAll_of_none _ _ _ fun i l hi => live_of_not_holds hl i l (by rw [← hrings.lease?]; exact hi)
  have hwithdraw : ({ s.begin with st := (s.closingBegun c n).chosen } : Happening).withdrawAll n =
      { s.begin with st := (s.closingBegun c n).chosen.chosen } :=
    withdrawAll_of_none fun r o hr => ho r o (by rw [← hrings.owned]; exact hr)
  have hstart : (s.begin.map fun s => (s.setStage c (.tearing n)).beginClosing n) = { s.begin with st := s.closingBegun c n } := rfl
  have hmap : (({ s.begin with st := s.closingBegun c n } : Happening).map fun s => s.dropContexts n) =
      { s.begin with st := s.closingBegun c n } := by
    simp only [Happening.map, hdrop]
  unfold Happening.tearDown
  simp only [hstart, hqueue, hmap, hstop, hwithdraw]
  rfl

/-- The tenant CLOSED, before the command is answered. -/
def State.closedAtOnce (s : State) (c : CtxId) (n : TenantId) : State :=
  (s.closingBegun c n).chosen.chosen.setTenant n { (s.closingBegun c n).tenant n with state := .closed, desc := none }

/-- The end of a teardown in its own happening: the CLOSE_TENANT finishes OK. -/
theorem settle_tearDown_idle (hx : s.context c = some x) (ht : x.tenant = admin) (hn : n ≠ admin) (hd : s.service.isDraining = false)
    (hclosing : ∀ m, (s.tenant m).state ≠ .closing) (hl : s.holdsLease n = false) (hc : s.holdsContext n = false)
    (htearing : ∀ d y, s.context d = some y → y.stage ≠ .tearing n) :
    ({ s.begin with st := (s.closingBegun c n).chosen.chosen, check := true } : Happening).settle =
      (s.closedAtOnce c n).finish c { x with stage := .tearing n }
        (completionOf c { x with stage := .tearing n } .ok .none none 0) [] := by
  have hrings := onlyRings_closingBegun s c n
  have hcontext : ∀ d, (s.closedAtOnce c n).context d = if d = c then some { x with stage := .tearing n } else s.context d :=
    closingBegun_context hx
  have htenants := closingBegun_tenant (n := n) hx
  have hlease : (s.closingBegun c n).chosen.chosen.holdsLease n = false := by
    refine (congrArg (fun u : State => u.holdsLease n) hrings.eq).trans ?_
    exact hl
  have hheld : (s.closingBegun c n).chosen.chosen.holdsContext n = false := by
    unfold State.holdsContext
    rw [List.any_eq_false]
    intro d _
    have hd' : (s.closingBegun c n).chosen.chosen.context d = _ := hcontext d
    rw [hd']
    split
    · next y hy =>
      split at hy
      · cases hy
        simp only [beq_iff_eq]
        exact fun k => hn (k.symm.trans ht)
      · simp only [beq_iff_eq]
        exact context_of_not_holds hc d y hy
    · exact Bool.false_ne_true
  have hfind : (s.closedAtOnce c n).findContext admin (Stage.isTearing n) = some (c, { x with stage := .tearing n }) := by
    refine findContext_unique (by rw [hcontext, if_pos rfl]) ht (beq_self_eq_true n) fun e y hy _ hp => ?_
    by_contra he
    rw [hcontext, if_neg he] at hy
    refine htearing e y hy ?_
    unfold Stage.isTearing at hp
    split at hp
    · next m hm => rw [hm, beq_iff_eq.mp hp]
    · cases hp
  have hstate : ((s.closingBegun c n).chosen.chosen.tenant n).state = .closing := by
    rw [show (s.closingBegun c n).chosen.chosen.tenant n = _ from htenants n, if_pos rfl]
  have hteardown : ({ s.begin with st := (s.closingBegun c n).chosen.chosen, check := true } : Happening).teardownEnd n =
      ({ s.begin with st := s.closedAtOnce c n, check := true } : Happening).reply c .ok := by
    unfold Happening.teardownEnd
    rw [if_pos ⟨hstate, hlease, hheld⟩]
    have hmap : (({ s.begin with st := (s.closingBegun c n).chosen.chosen, check := true } : Happening).map fun s =>
        s.setTenant n { s.tenant n with state := .closed, desc := none }) =
        { s.begin with st := s.closedAtOnce c n, check := true } := rfl
    simp only [hmap, hfind]
  have hreply : ({ s.begin with st := s.closedAtOnce c n, check := true } : Happening).reply c .ok = _ :=
    answer_eq _ c _ ((hcontext c).trans (if_pos rfl)) .ok .none none 0
  have hafter : ∀ m, (((s.closedAtOnce c n).finished c { x with stage := .tearing n }).tenant m).state ≠ .closing := by
    intro m
    rw [finished_tenant_state, State.closedAtOnce, State.tenant_setTenant]
    split
    · exact fun k => nomatch k
    · next hm =>
      rw [show (s.closingBegun c n).chosen.chosen.tenant m = _ from htenants m, if_neg hm]
      exact hclosing m
  have hends : ({ s.begin with st := (s.closingBegun c n).chosen.chosen, check := true } : Happening).endings = _ :=
    endings_of_one_closing (n := n)
      (show (s.closingBegun c n).service.isDraining = false by rw [hrings.service]; exact hd)
      (fun m hm => by
        rw [show (s.closingBegun c n).chosen.chosen.tenant m = _ from htenants m, if_neg hm]
        exact hclosing m)
      (fun m => by
        rw [hteardown, hreply]
        exact hafter m)
  rw [settle_of_check _ rfl rfl, hends, hteardown, hreply]
  rfl

end

/-- Settles O38. -/
theorem closeTenantOfAnIdleTenant : Obligations.CloseTenantOfAnIdleTenant := by
  intro s c n H hs hd hn hopen hclosing hl hc hout hw htearing ho
  obtain ⟨x, hx, ht, -, -⟩ := takenCommand_context H.1
  have hexec := exec_closeTenant H.1 hs hn (hears_of_open hopen)
  rw [tearDown_idle hx (fun k => hn (k.symm.trans ht)) hl hc hout hw ho,
    settle_tearDown_idle hx ht hn hd hclosing hl hc htearing] at hexec
  have htenants : ∀ m, (s.closedAtOnce c n).tenant m =
      if m = n then
        { s.tenant n with
          state := .closed, desc := none, scanPending := false, underWay := false, stalled := false, recheck := none
          intPending := false }
      else s.tenant m := by
    intro m
    rw [State.closedAtOnce, State.tenant_setTenant]
    split
    · rw [closingBegun_tenant hx, if_pos rfl]
    · next hm =>
      refine (closingBegun_tenant hx m).trans (if_neg hm)
  have hadmin : (s.closedAtOnce c n).tenant admin = s.tenant admin := (htenants admin).trans (if_neg (Ne.symm hn))
  have hctx : ∀ d, (s.closedAtOnce c n).context d = if d = c then some { x with stage := .tearing n } else s.context d :=
    closingBegun_context hx
  have hfin := finishes_finish (s.closedAtOnce c n) c { x with stage := .tearing n } ((hctx c).trans (if_pos rfl))
    (by rw [ht, hadmin]; exact H.2) .ok .none none 0 []
  have hrings := onlyRings_finish (s.closedAtOnce c n) c { x with stage := .tearing n }
    (completionOf c { x with stage := .tearing n } .ok .none none 0) []
  have hclosed : OnlyRings s.chosen.chosen (s.closedAtOnce c n) := by
    have hbegun := (onlyRings_closingBegun s c n).eq
    show s.closedAtOnce c n = { s.chosen.chosen with tenants := (s.closedAtOnce c n).tenants, pool := (s.closedAtOnce c n).pool }
    unfold State.closedAtOnce
    rw [hbegun]
    rfl
  have hu := hclosed.trans hrings
  generalize (s.closedAtOnce c n).finish c _ _ [] = u at hexec hfin hrings hu
  obtain ⟨y, hy, hend, hothers, hself, hrest, hlast⟩ := hfin
  rw [hctx, if_pos rfl] at hy
  cases hy
  refine ⟨u, hexec, ?_, ⟨x, hx, hend, ?_⟩, fun d hd' => ?_, fun m hm hma => ?_, hu.lastGranted, hu.keepsLeases, hu.keepsBudget,
    hu.keepsQueue, hu.keepsRails, hu.keepsTiers, hu.keepsOwners, hu.keepsService, hu.now, hu.pending⟩
  · rw [hrest n (by rw [ht]; exact hn), Tenant.withMarks_nil, htenants, if_pos rfl]
  · rw [ht, hadmin] at hself
    exact hself
  · rw [hothers d hd', hctx, if_neg hd']
  · rw [hrest m (by rw [ht]; exact hma), Tenant.withMarks_nil, htenants, if_neg hm]

end Sys2Proof.Machine

/-! PROOFS. The rings' side of a teardown (R154, R158): the discarded queue, the dropped accesses, and what the end of the happening
leaves of a CLOSING tenant. -/

namespace Sys2Proof.Machine

/-! ### Contexts freed and dropped -/

theorem freeContext_context (s : State) (c d : CtxId) : (s.freeContext c).context d = if d = c then none else s.context d := by
  cases hx : s.context c with
  | none =>
    simp only [State.freeContext, hx]
    split
    · next h => rw [h, hx]
    · rfl
  | some x =>
    rw [freeContext_eq hx]
    exact State.context_setContext s c d none

theorem freeContext_tenant (s : State) (c : CtxId) (m : TenantId) : ∃ k, (s.freeContext c).tenant m = { s.tenant m with inFlight := k } := by
  cases hx : s.context c with
  | none =>
    simp only [State.freeContext, hx]
    exact ⟨_, rfl⟩
  | some x =>
    rw [freeContext_eq hx, State.tenant_setTenant]
    split
    · next h => rw [h]; exact ⟨_, rfl⟩
    · exact ⟨_, rfl⟩

/-- The entry is the completion of a context. -/
def OutEntry.completes (d : CtxId) : OutEntry → Bool
  | .completion y => y.ctx == d
  | .marker _ _ => false

theorem discard_context (h : Happening) (e : OutEntry) (d : CtxId) :
    (h.discard e).st.context d = if e.completes d then none else h.st.context d := by
  unfold Happening.discard OutEntry.completes
  split
  · next y =>
    refine (freeContext_context h.st y.ctx d).trans (if_congr ?_ rfl rfl)
    rw [beq_iff_eq, eq_comm]
  · rfl
  · rfl

theorem discardAll_context (q : List OutEntry) (h : Happening) (d : CtxId) :
    (q.foldl Happening.discard h).st.context d = if q.any (OutEntry.completes d) then none else h.st.context d := by
  induction q generalizing h with
  | nil => rfl
  | cons e q ih =>
    rw [List.foldl_cons, ih, discard_context, List.any_cons]
    cases e.completes d <;> simp

/-- A discarded queue is told to no one, and changes only the counts in flight. -/
theorem discardAll_keeps (q : List OutEntry) (h : Happening) :
    (∀ m, ∃ k, (q.foldl Happening.discard h).st.tenant m = { h.st.tenant m with inFlight := k }) ∧
      (q.foldl Happening.discard h).marks = h.marks ∧ (q.foldl Happening.discard h).answers = h.answers := by
  induction q generalizing h with
  | nil => exact ⟨fun m => ⟨_, rfl⟩, rfl, rfl⟩
  | cons e q ih =>
    obtain ⟨htenant, hmarks, hanswers⟩ := ih (h.discard e)
    have hone : (∀ m, ∃ k, (h.discard e).st.tenant m = { h.st.tenant m with inFlight := k }) ∧ (h.discard e).marks = h.marks ∧
        (h.discard e).answers = h.answers := by
      unfold Happening.discard
      split
      · exact ⟨fun m => freeContext_tenant _ _ m, rfl, rfl⟩
      · exact ⟨fun m => ⟨_, rfl⟩, rfl, rfl⟩
      · exact ⟨fun m => ⟨_, rfl⟩, rfl, rfl⟩
    obtain ⟨htenant', hmarks', hanswers'⟩ := hone
    refine ⟨fun m => ?_, hmarks.trans hmarks', hanswers.trans hanswers'⟩
    obtain ⟨k, hk⟩ := htenant m
    obtain ⟨k', hk'⟩ := htenant' m
    exact ⟨k, by rw [List.foldl_cons, hk, hk']⟩

/-- A context after its tenant's accesses were dropped (R158 step 3). -/
def Context.droppedFor (n : TenantId) (x : Context) : Context := if x.tenant = n then { x with stage := x.stage.dropped } else x

theorem dropContexts_context (s : State) (n : TenantId) (d : CtxId) :
    (s.dropContexts n).context d =
      if (s.findContext n Stage.isTaken).map Prod.fst = some d then none else (s.context d).map (Context.droppedFor n) := by
  have hmap : ∀ v : State, ((v.mapStages n Stage.dropped).setTenant n
      { (v.mapStages n Stage.dropped).tenant n with
        writer := ((v.mapStages n Stage.dropped).tenant n).writer.map WriterAccess.dropped }).context d =
      (v.context d).map (Context.droppedFor n) := fun v => mapStages_context v n Stage.dropped d
  unfold State.dropContexts
  simp only [hmap]
  split
  · next c x hf =>
    simp only [freeContext_context, hf, Option.map_some, Option.some.injEq]
    by_cases hd : d = c
    · rw [if_pos hd, if_pos hd.symm]
      rfl
    · rw [if_neg hd, if_neg (Ne.symm hd)]
  · next hf => simp only [hf, Option.map_none, reduceCtorEq, if_false]

theorem dropContexts_tenant (s : State) (n m : TenantId) :
    ∃ k, (s.dropContexts n).tenant m =
      if m = n then { s.tenant n with inFlight := k, writer := (s.tenant n).writer.map WriterAccess.dropped }
      else { s.tenant m with inFlight := k } := by
  have hset : ∀ v : State, ((v.mapStages n Stage.dropped).setTenant n
      { (v.mapStages n Stage.dropped).tenant n with
        writer := ((v.mapStages n Stage.dropped).tenant n).writer.map WriterAccess.dropped }).tenant m =
      if m = n then { v.tenant n with writer := (v.tenant n).writer.map WriterAccess.dropped } else v.tenant m :=
    fun v => State.tenant_setTenant _ n m _
  obtain ⟨v, hv, hfree⟩ : ∃ v : State, s.dropContexts n = (v.mapStages n Stage.dropped).setTenant n
      { (v.mapStages n Stage.dropped).tenant n with
        writer := ((v.mapStages n Stage.dropped).tenant n).writer.map WriterAccess.dropped } ∧
      ∀ j, ∃ k, v.tenant j = { s.tenant j with inFlight := k } := by
    unfold State.dropContexts
    cases hf : s.findContext n Stage.isTaken with
    | none => exact ⟨s, rfl, fun j => ⟨_, rfl⟩⟩
    | some found => exact ⟨s.freeContext found.1, rfl, fun j => freeContext_tenant s found.1 j⟩
  rw [hv, hset]
  by_cases hm : m = n
  · obtain ⟨k, hk⟩ := hfree n
    exact ⟨k, by rw [if_pos hm, if_pos hm, hk]⟩
  · obtain ⟨k, hk⟩ := hfree m
    exact ⟨k, by rw [if_neg hm, if_neg hm, hk]⟩

/-! ### What leaves a tenant's contexts and every marker alone -/

/-- The contexts of a tenant, every marker and every slot are as they were, and no free context is taken. -/
structure State.Passes (n : TenantId) (s u : State) : Prop where
  held    : ∀ d x, x.tenant = n → (u.context d = some x ↔ s.context d = some x)
  free    : ∀ d, s.context d = none → u.context d = none
  markers : ∀ m x, (u.tenant m).outbound.any (OutEntry.isMarker x) = (s.tenant m).outbound.any (OutEntry.isMarker x)
  slots   : u.slots = s.slots

namespace State.Passes
variable {n : TenantId} {s u v : State}

theorem refl (n : TenantId) (s : State) : State.Passes n s s :=
  ⟨fun _ _ _ => Iff.rfl, fun _ h => h, fun _ _ => rfl, rfl⟩

theorem trans (a : State.Passes n s u) (b : State.Passes n u v) : State.Passes n s v :=
  ⟨fun d x hx => (b.held d x hx).trans (a.held d x hx), fun d h => b.free d (a.free d h),
    fun m x => (b.markers m x).trans (a.markers m x), b.slots.trans a.slots⟩

theorem lease? (a : State.Passes n s u) (i : SlotId) : u.lease? i = s.lease? i := congrArg (fun v => (vget v i).lease) a.slots

theorem holdsLease (a : State.Passes n s u) (m : TenantId) : u.holdsLease m = s.holdsLease m := by
  unfold State.holdsLease
  simp only [a.lease?]

theorem holdsContext (a : State.Passes n s u) : u.holdsContext n = s.holdsContext n := by
  have hiff : ∀ v : State, v.holdsContext n = true ↔ ∃ d x, x.tenant = n ∧ v.context d = some x := by
    intro v
    unfold State.holdsContext
    rw [List.any_eq_true]
    constructor
    · rintro ⟨d, -, hd⟩
      split at hd
      · next x hx => exact ⟨d, x, beq_iff_eq.mp hd, hx⟩
      · cases hd
    · rintro ⟨d, x, ht, hx⟩
      refine ⟨d, List.mem_finRange d, ?_⟩
      simp only [hx]
      exact beq_iff_eq.mpr ht
  rw [Bool.eq_iff_iff, hiff, hiff]
  exact exists_congr fun d => exists_congr fun x => and_congr_right fun hx => a.held d x hx

/-- A write of a tenant's block that keeps its queue's markers. -/
theorem of_setTenant {m : TenantId} {x : Tenant}
    (h : ∀ y, x.outbound.any (OutEntry.isMarker y) = (s.tenant m).outbound.any (OutEntry.isMarker y)) :
    State.Passes n s (s.setTenant m x) := by
  refine ⟨fun _ _ _ => Iff.rfl, fun _ h => h, fun k y => ?_, rfl⟩
  rw [State.tenant_setTenant]
  split
  · next hk => rw [hk, h]
  · rfl

/-- A write of a held context of another tenant. -/
theorem of_setContext {c : CtxId} {x : Context} {y : Option Context} (hx : s.context c = some x) (ht : x.tenant ≠ n)
    (hy : ∀ z, y = some z → z.tenant ≠ n) : State.Passes n s (s.setContext c y) := by
  refine ⟨fun d z hz => ?_, fun d hd => ?_, fun _ _ => rfl, rfl⟩
  · rw [State.context_setContext]
    split
    · next h =>
      rw [h, hx]
      exact ⟨fun k => absurd hz (hy z k), fun k => absurd hz (Option.some.inj k ▸ ht)⟩
    · exact Iff.rfl
  · rw [State.context_setContext]
    split
    · next h => rw [h, hx] at hd; cases hd
    · exact hd

end State.Passes

/-- Completions to be posted are of other tenants, in contexts that the tenant does not hold. -/
def AnswersSpare (n : TenantId) (answers : List (TenantId × Completion)) (s : State) : Prop :=
  ∀ a ∈ answers, a.1 ≠ n ∧ ∀ x, s.context a.2.ctx = some x → x.tenant ≠ n

theorem AnswersSpare.mono {n : TenantId} {answers : List (TenantId × Completion)} {s u : State} (h : AnswersSpare n answers s)
    (p : State.Passes n s u) : AnswersSpare n answers u := by
  intro a ha
  obtain ⟨ht, hx⟩ := h a ha
  exact ⟨ht, fun x hu htx => hx x ((p.held _ x htx).mp hu) htx⟩

/-! ### The ends of drains and of other teardowns -/

/-- What the ends of drains and teardowns leave of a tenant. -/
structure Happening.EndsAround (n : TenantId) (h g : Happening) : Prop where
  passes  : State.Passes n h.st g.st
  marks   : g.marks = h.marks
  loose   : g.loose = h.loose
  answers : AnswersSpare n h.answers h.st → AnswersSpare n g.answers g.st

namespace Happening.EndsAround
variable {n : TenantId} {h g k : Happening}

theorem refl (n : TenantId) (h : Happening) : h.EndsAround n h := ⟨.refl n h.st, rfl, rfl, id⟩

theorem trans (a : h.EndsAround n g) (b : g.EndsAround n k) : h.EndsAround n k :=
  ⟨a.passes.trans b.passes, b.marks.trans a.marks, b.loose.trans a.loose, b.answers ∘ a.answers⟩

end Happening.EndsAround

section
variable {n : TenantId} {h : Happening}

/-- A command of another tenant finishes. -/
theorem reply_endsAround {c : CtxId} {x : Context} (hx : h.st.context c = some x) (ht : x.tenant ≠ n) (status : Status) :
    h.EndsAround n (h.reply c status) ∧ (h.reply c status).st.tenant n = h.st.tenant n := by
  have hreply : h.reply c status = _ := answer_eq h c x hx status .none none 0
  have hpasses : State.Passes n h.st (h.st.finished c x) := by
    have hcontext : State.Passes n h.st (h.st.setContext c (some { x with stage := .finished })) :=
      .of_setContext hx ht fun z hz => by cases hz; exact ht
    exact hcontext.trans (.of_setTenant fun _ => rfl)
  rw [hreply]
  refine ⟨⟨hpasses, rfl, rfl, fun ha a hmem => ?_⟩, ?_⟩
  · obtain hmem | hmem := List.mem_append.mp hmem
    · exact ha.mono hpasses a hmem
    · rw [List.mem_singleton.mp hmem]
      refine ⟨ht, fun y hy => ?_⟩
      have hc : (h.st.finished c x).context c = some { x with stage := .finished } := by
        unfold State.finished
        exact (State.context_setContext h.st c c _).trans (if_pos rfl)
      rw [show (completionOf c x status .none none 0).ctx = c from rfl, hc] at hy
      cases hy
      exact ht
  · show (h.st.finished c x).tenant n = h.st.tenant n
    unfold State.finished State.setUnderWay
    rw [State.tenant_setTenant, if_neg (Ne.symm ht)]
    rfl

theorem drainEnd_endsAround (hn : n ≠ admin) : h.EndsAround n h.drainEnd ∧ h.drainEnd.st.tenant n = h.st.tenant n := by
  unfold Happening.drainEnd
  split
  · split
    · exact ⟨.refl n h, rfl⟩
    · have hover : h.EndsAround n (h.map fun s => { s with service := .configuring }) :=
        ⟨⟨fun _ _ _ => Iff.rfl, fun _ k => k, fun _ _ => rfl, rfl⟩, rfl, rfl, id⟩
      simp only
      split
      · split
        · next c y hf =>
          obtain ⟨hy, ht, -⟩ := findContext_some hf
          obtain ⟨hreply, htenant⟩ := reply_endsAround (n := n) hy (fun k => hn (k.symm.trans ht)) .ok
          exact ⟨hover.trans hreply, htenant⟩
        · exact ⟨hover, rfl⟩
      · exact ⟨hover, rfl⟩
  · exact ⟨.refl n h, rfl⟩

/-- A tenant CLOSED. -/
def Tenant.closedNow (x : Tenant) : Tenant := { x with state := .closed, desc := none }

theorem close_endsAround (h : Happening) (n m : TenantId) :
    h.EndsAround n (h.map fun s => s.setTenant m { s.tenant m with state := .closed, desc := none }) :=
  ⟨.of_setTenant fun _ => rfl, rfl, rfl, id⟩

theorem teardownEnd_endsAround (hn : n ≠ admin) (m : TenantId) : h.EndsAround n (h.teardownEnd m) := by
  unfold Happening.teardownEnd
  split
  · simp only
    split
    · next c y hf =>
      obtain ⟨hy, ht, -⟩ := findContext_some hf
      exact (close_endsAround h n m).trans (reply_endsAround hy (fun k => hn (k.symm.trans ht)) .ok).1
    · exact close_endsAround h n m
  · exact .refl n h

theorem teardownEnd_tenant (hn : n ≠ admin) (m : TenantId) :
    (h.teardownEnd m).st.tenant n =
      if m = n ∧ (h.st.tenant n).state = .closing ∧ h.st.holdsLease n = false ∧ h.st.holdsContext n = false then
        (h.st.tenant n).closedNow
      else h.st.tenant n := by
  have hclose : (h.map fun s => s.setTenant m { s.tenant m with state := .closed, desc := none }).st.tenant n =
      if m = n then (h.st.tenant n).closedNow else h.st.tenant n := by
    refine (State.tenant_setTenant _ m n _).trans ?_
    by_cases hm : m = n
    · rw [if_pos hm.symm, if_pos hm, hm]
      rfl
    · rw [if_neg (Ne.symm hm), if_neg hm]
  unfold Happening.teardownEnd
  split
  · next hend =>
    have hresult : (h.map fun s => s.setTenant m { s.tenant m with state := .closed, desc := none }).st.tenant n =
        if m = n ∧ (h.st.tenant n).state = .closing ∧ h.st.holdsLease n = false ∧ h.st.holdsContext n = false then
          (h.st.tenant n).closedNow
        else h.st.tenant n := by
      rw [hclose]
      by_cases hm : m = n
      · rw [if_pos hm, if_pos ⟨hm, hm ▸ hend⟩]
      · rw [if_neg hm, if_neg fun k => hm k.1]
    simp only
    split
    · next c y hf =>
      obtain ⟨hy, ht, -⟩ := findContext_some hf
      exact (reply_endsAround hy (fun k => hn (k.symm.trans ht)) .ok).2.trans hresult
    · exact hresult
  · next hend =>
    rw [if_neg]
    rintro ⟨rfl, hrest⟩
    exact hend hrest

theorem foldl_teardownEnd_endsAround (hn : n ≠ admin) (ms : List TenantId) (hms : n ∉ ms) (h : Happening) :
    h.EndsAround n (ms.foldl Happening.teardownEnd h) ∧ (ms.foldl Happening.teardownEnd h).st.tenant n = h.st.tenant n := by
  induction ms generalizing h with
  | nil => exact ⟨.refl n h, rfl⟩
  | cons m ms ih =>
    obtain ⟨hrest, htenant⟩ := ih (fun k => hms (List.mem_cons_of_mem _ k)) (h.teardownEnd m)
    refine ⟨(teardownEnd_endsAround hn m).trans hrest, htenant.trans ?_⟩
    rw [teardownEnd_tenant hn, if_neg]
    rintro ⟨rfl, -⟩
    exact hms List.mem_cons_self

/-- The end of a happening closes a CLOSING tenant that has no live lease and holds no context (R158). -/
theorem endings_endsAround (hn : n ≠ admin) (hc : (h.st.tenant n).state = .closing) :
    h.EndsAround n h.endings ∧
      h.endings.st.tenant n =
        if h.st.holdsLease n || h.st.holdsContext n then h.st.tenant n else (h.st.tenant n).closedNow := by
  obtain ⟨before, after, hsplit⟩ := List.append_of_mem (List.mem_finRange n)
  have hnodup := List.nodup_finRange 4
  rw [hsplit, List.nodup_append, List.nodup_cons] at hnodup
  obtain ⟨-, ⟨hafter, -⟩, hbefore⟩ := hnodup
  obtain ⟨hdrain, htenant⟩ := drainEnd_endsAround (h := h) hn
  obtain ⟨hfirst, htenant'⟩ := foldl_teardownEnd_endsAround hn before
    (fun k => hbefore n k n List.mem_cons_self rfl) h.drainEnd
  have hto := hdrain.trans hfirst
  obtain ⟨hlast, htenant''⟩ := foldl_teardownEnd_endsAround hn after hafter
    ((before.foldl Happening.teardownEnd h.drainEnd).teardownEnd n)
  have hends : h.endings = after.foldl Happening.teardownEnd ((before.foldl Happening.teardownEnd h.drainEnd).teardownEnd n) := by
    rw [Happening.endings, hsplit, List.foldl_append, List.foldl_cons]
  rw [hends]
  refine ⟨(hto.trans (teardownEnd_endsAround hn n)).trans hlast, htenant''.trans ?_⟩
  rw [teardownEnd_tenant hn, hto.passes.holdsLease, hto.passes.holdsContext, htenant', htenant]
  cases h.st.holdsLease n <;> cases h.st.holdsContext n <;> simp [hc]

end

/-! ### The queues at the end of the happening -/

theorem freeContext_passes {s : State} {n : TenantId} {c : CtxId} (hc : ∀ x, s.context c = some x → x.tenant ≠ n) :
    State.Passes n s (s.freeContext c) ∧ (s.freeContext c).tenant n = s.tenant n := by
  cases hx : s.context c with
  | none =>
    have hsame : s.freeContext c = s := by simp only [State.freeContext, hx]
    rw [hsame]
    exact ⟨.refl n s, rfl⟩
  | some x =>
    have ht := hc x hx
    have hset : State.Passes n s (s.setContext c none) := .of_setContext hx ht fun z hz => nomatch hz
    rw [freeContext_eq hx]
    exact ⟨hset.trans (.of_setTenant fun _ => rfl), (State.tenant_setTenant _ _ n _).trans (if_neg (Ne.symm ht))⟩

theorem postCompletion_passes {s : State} {n t : TenantId} {y : Completion} (ht : t ≠ n)
    (hc : ∀ x, s.context y.ctx = some x → x.tenant ≠ n) :
    State.Passes n s (s.postCompletion t y) ∧ (s.postCompletion t y).tenant n = s.tenant n := by
  unfold State.postCompletion
  split
  · refine ⟨.of_setTenant fun x => ?_, (State.tenant_setTenant _ _ n _).trans (if_neg (Ne.symm ht))⟩
    rw [List.any_append]
    exact Bool.or_false _
  · exact freeContext_passes hc

theorem completions_pass {n : TenantId} (answers : List (TenantId × Completion)) {s : State} (h : AnswersSpare n answers s) :
    State.Passes n s (answers.foldl (fun s a => s.postCompletion a.1 a.2) s) ∧
      (answers.foldl (fun s a => s.postCompletion a.1 a.2) s).tenant n = s.tenant n := by
  induction answers generalizing s with
  | nil => exact ⟨.refl n s, rfl⟩
  | cons a answers ih =>
    obtain ⟨ht, hc⟩ := h a List.mem_cons_self
    obtain ⟨hpost, htenant⟩ := postCompletion_passes ht hc
    have hrest : AnswersSpare n answers s := fun b hb => h b (List.mem_cons_of_mem _ hb)
    obtain ⟨hall, htenant'⟩ := ih (hrest.mono hpost)
    exact ⟨hpost.trans hall, htenant'.trans htenant⟩

theorem addMarker_any_of_ne {x y : Subject} (hxy : y ≠ x) (reason : Reason) (q : List OutEntry) :
    (addMarker y reason q).any (OutEntry.isMarker x) = q.any (OutEntry.isMarker x) := by
  have hmark : (OutEntry.marker y reason).isMarker x = false := beq_eq_false_iff_ne.mpr hxy
  unfold addMarker
  split
  · rw [List.any_map]
    refine congrArg (fun f => q.any f) (funext fun e => ?_)
    show (if e.isMarker y then OutEntry.marker y reason else e).isMarker x = e.isMarker x
    split
    · next he =>
      cases e with
      | completion c => cases he
      | marker z r =>
        rw [hmark]
        exact (beq_eq_false_iff_ne.mpr fun k => hxy ((beq_iff_eq.mp he).symm.trans k)).symm
    · rfl
  · rw [List.any_append, List.any_cons, hmark, List.any_nil, Bool.or_false, Bool.or_false]

/-- Markers of other subjects, or for other tenants, leave a subject's marker as it stands. -/
theorem withMarks_any_of_untold {m : TenantId} {x : Subject} (marks : List (TenantId × Subject × Reason))
    (h : ∀ reason, (m, x, reason) ∉ marks) (q : List OutEntry) :
    (withMarks m marks q).any (OutEntry.isMarker x) = q.any (OutEntry.isMarker x) := by
  induction marks generalizing q with
  | nil => rfl
  | cons a marks ih =>
    have hrest : ∀ reason, (m, x, reason) ∉ marks := fun reason k => h reason (List.mem_cons_of_mem _ k)
    rw [withMarks_cons]
    split
    · next ha =>
      rw [ih hrest]
      refine addMarker_any_of_ne (fun k => h a.2.2 ?_) _ _
      rw [← ha, ← k]
      exact List.mem_cons_self
    · exact ih hrest q

theorem foldl_freeEnded_of_empty {s : State} {i : SlotId} (h : s.lease? i = none) (loose : List SlotId) :
    (loose.foldl State.freeEnded s).slot i = s.slot i := by
  induction loose generalizing s with
  | nil => rfl
  | cons j loose ih =>
    have hslot : (s.freeEnded j).slot i = s.slot i := by
      by_cases hj : i = j
      · subst hj
        simp only [State.freeEnded, h]
      · exact freeEnded_otherSlot s hj
    rw [List.foldl_cons, ih (by rw [State.lease?, hslot]; exact h), hslot]

/-- An ended lease that no queue marks loses its slot at the end of a happening that may free it (R18). -/
theorem foldl_freeEnded_of_unmarked {s : State} {i : SlotId} {l : Lease} (hl : s.lease? i = some l) (he : l.live = false)
    (hm : s.marked (s.handleOf i) = false) {loose : List SlotId} (hi : i ∈ loose) :
    (loose.foldl State.freeEnded s).slot i = { gen := nextGen (s.slot i).gen, lease := none } := by
  induction loose generalizing s with
  | nil => exact absurd hi List.not_mem_nil
  | cons j loose ih =>
    rw [List.foldl_cons]
    by_cases hj : i = j
    · subst hj
      have hfreed : (s.freeEnded i).slot i = { gen := nextGen (s.slot i).gen, lease := none } := by
        unfold State.freeEnded
        simp only [hl, he, hm, and_self, if_true]
        exact (State.slot_setSlot s i i _).trans (if_pos rfl)
      rw [foldl_freeEnded_of_empty (by rw [State.lease?, hfreed]), hfreed]
    · have hslot := freeEnded_otherSlot s hj
      have hmarked : (s.freeEnded j).marked ((s.freeEnded j).handleOf i) = false := by
        rw [State.handleOf, hslot, freeEnded_marked]
        exact hm
      rw [ih (by rw [State.lease?, hslot]; exact hl) hmarked ((List.mem_cons.mp hi).resolve_left hj), hslot]

/-! ### What the end of the happening leaves of a CLOSING tenant -/

theorem anyLease_of_slots {s u : State} {n : TenantId} (hlive : ∀ j l, s.lease? j = some l → l.live = true → u.lease? j = some l)
    (hback : ∀ j l, u.lease? j = some l → s.lease? j = some l) : u.holdsLease n = s.holdsLease n := by
  have hiff : ∀ v : State, v.holdsLease n = true ↔ ∃ j l, v.lease? j = some l ∧ l.live = true ∧ l.tenant = n := by
    intro v
    unfold State.holdsLease
    rw [List.any_eq_true]
    constructor
    · rintro ⟨j, -, hj⟩
      split at hj
      · next l hl =>
        rw [Bool.and_eq_true, beq_iff_eq] at hj
        exact ⟨j, l, hl, hj⟩
      · cases hj
    · rintro ⟨j, l, hl, hlive, ht⟩
      refine ⟨j, List.mem_finRange j, ?_⟩
      simp only [hl, hlive, ht, beq_self_eq_true, Bool.and_self]
  rw [Bool.eq_iff_iff, hiff, hiff]
  exact ⟨fun ⟨j, l, hl, k⟩ => ⟨j, l, hback j l hl, k⟩, fun ⟨j, l, hl, k, ht⟩ => ⟨j, l, hlive j l hl k, k, ht⟩⟩

/-- What is left of a happening in which a tenant's teardown has begun: its contexts, the live leases, and the ended leases that
only its own queue marked. -/
structure TeardownEnds (n : TenantId) (g : Happening) (u : State) : Prop where
  tenant : u.tenant n = if u.holdsLease n || u.holdsContext n then g.st.tenant n else (g.st.tenant n).closedNow
  held   : ∀ d x, x.tenant = n → (u.context d = some x ↔ g.st.context d = some x)
  free   : ∀ d, g.st.context d = none → u.context d = none
  live   : ∀ j l, g.st.lease? j = some l → l.live = true → u.slot j = g.st.slot j
  ended  : ∀ j l, g.st.lease? j = some l → l.live = false → j ∈ g.loose →
    (∀ m reason, m ≠ n → (m, .lease (g.st.handleOf j), reason) ∉ g.marks) →
    u.slot j = if ∃ m, m ≠ n ∧ (g.st.tenant m).outbound.any (OutEntry.isMarker (.lease (g.st.handleOf j))) = true then g.st.slot j
      else { gen := nextGen (g.st.slot j).gen, lease := none }
  queue  : u.queue = g.st.queue

theorem drainEnd_queue (h : Happening) : h.drainEnd.st.queue = h.st.queue := by
  unfold Happening.drainEnd
  split
  · split
    · rfl
    · simp only
      split
      · split
        · exact (onlyRings_answer _ _ _ _ _ _).queue
        · rfl
      · rfl
  · rfl

theorem endings_queue (h : Happening) : h.endings.st.queue = h.st.queue := by
  rw [Happening.endings, (onlyRings_teardowns h.drainEnd _).queue, drainEnd_queue]

theorem marked_iff (s : State) (x : Handle) :
    s.marked x = true ↔ ∃ m, (s.tenant m).outbound.any (OutEntry.isMarker (.lease x)) = true := by
  unfold State.marked
  rw [List.any_eq_true]
  exact ⟨fun ⟨m, _, hm⟩ => ⟨m, hm⟩, fun ⟨m, hm⟩ => ⟨m, List.mem_finRange m, hm⟩⟩

theorem hears_closing {x : Tenant} (h : x.state = .closing) : x.hears = false ∧ x.closedNow.hears = false := by
  unfold Tenant.hears Tenant.closedNow
  rw [h]
  exact ⟨rfl, rfl⟩

/-- The queues at the end of a happening in which a teardown has come as far as it can. -/
theorem flush_of_ended {n : TenantId} {g k : Happening} (hends : g.EndsAround n k) (ha : g.answers = [])
    (hclosing : (g.st.tenant n).state = .closing) (hout : (g.st.tenant n).outbound = [])
    (htenant : k.st.tenant n =
      if g.st.holdsLease n || g.st.holdsContext n then g.st.tenant n else (g.st.tenant n).closedNow)
    (hqueue : k.st.queue = g.st.queue) : TeardownEnds n g k.flush := by
  obtain ⟨hdeaf, hdeaf'⟩ := hears_closing hclosing
  have hspare : AnswersSpare n k.answers k.st := hends.answers (by rw [ha]; exact fun a h => nomatch h)
  have hmarks := hends.marks
  have hloose := hends.loose
  have hpasses := hends.passes
  obtain ⟨hcompletions, htenant'⟩ := completions_pass k.answers hspare
  have hflush : k.flush =
      g.loose.foldl State.freeEnded ((k.answers.foldl (fun s a => s.postCompletion a.1 a.2) k.st).postAll g.marks) := by
    simp only [Happening.flush, hmarks, hloose, State.postAll]
  have hqueue' := (flush_effect k).1
  generalize k.answers.foldl (fun s a => s.postCompletion a.1 a.2) k.st = v at hcompletions htenant' hflush
  have hto := hpasses.trans hcompletions
  have hposted := onlyRings_postAll v g.marks
  obtain ⟨hfreed, hslots⟩ := freeEnded_all g.loose (v.postAll g.marks)
  rw [← hflush] at hfreed hslots
  have hcontext : ∀ d, k.flush.context d = v.context d := by
    intro d
    rw [hfreed]
    exact congrArg (vget · d) (postAll_pool v g.marks)
  have hslot : ∀ j, (v.postAll g.marks).slot j = g.st.slot j := fun j =>
    (hposted.slot j).trans (congrArg (vget · j) hto.slots)
  have hlease : ∀ j, (v.postAll g.marks).lease? j = g.st.lease? j := fun j => congrArg Slot.lease (hslot j)
  have hlive : ∀ j l, g.st.lease? j = some l → l.live = true → k.flush.slot j = g.st.slot j := by
    intro j l hl hlive
    obtain hsame | ⟨-, hdead⟩ := hslots j
    · exact hsame.trans (hslot j)
    · exact absurd (hdead l ((hlease j).trans hl)) (by rw [hlive]; exact Bool.noConfusion)
  have hholdsLease : k.flush.holdsLease n = g.st.holdsLease n := by
    refine anyLease_of_slots (fun j l hl hk => ?_) (fun j l hl => ?_)
    · rw [State.lease?, hlive j l hl hk]
      exact hl
    · obtain hsame | ⟨hnone, -⟩ := hslots j
      · rw [← hlease j, State.lease?, ← hsame]
        exact hl
      · rw [hnone] at hl
        cases hl
  have hholdsContext : k.flush.holdsContext n = g.st.holdsContext n := by
    have hpool : k.flush.holdsContext n = v.holdsContext n := by
      unfold State.holdsContext
      simp only [hcontext]
    rw [hpool, hto.holdsContext]
  have hdeafEnd : (v.tenant n).hears = false := by
    rw [htenant', htenant]
    split
    · exact hdeaf
    · exact hdeaf'
  have htenantEnd : ∀ m, k.flush.tenant m = (v.tenant m).withMarks m g.marks := by
    intro m
    rw [hfreed]
    exact postAll_tenant v g.marks m
  refine ⟨?_, fun d x hx => ?_, fun d hd => ?_, hlive, fun j l hl hdead hj huntold => ?_, hqueue'.trans hqueue⟩
  · rw [hholdsLease, hholdsContext, htenantEnd, Tenant.withMarks, hdeafEnd, if_neg Bool.false_ne_true, htenant', htenant]
  · rw [hcontext]
    exact hto.held d x hx
  · rw [hcontext]
    exact hto.free d hd
  · have hhandle : (v.postAll g.marks).handleOf j = g.st.handleOf j := by rw [State.handleOf, hslot, State.handleOf]
    have hany : ∀ m, ((v.postAll g.marks).tenant m).outbound.any (OutEntry.isMarker (.lease (g.st.handleOf j))) =
        (g.st.tenant m).outbound.any (OutEntry.isMarker (.lease (g.st.handleOf j))) := by
      intro m
      refine Eq.trans ?_ (hto.markers m _)
      rw [postAll_tenant, Tenant.withMarks]
      split
      · next hh =>
        refine withMarks_any_of_untold g.marks (fun reason => huntold m reason ?_) _
        rintro rfl
        rw [hdeafEnd] at hh
        cases hh
      · rfl
    have hmarked : (v.postAll g.marks).marked ((v.postAll g.marks).handleOf j) = true ↔
        ∃ m, m ≠ n ∧ (g.st.tenant m).outbound.any (OutEntry.isMarker (.lease (g.st.handleOf j))) = true := by
      rw [hhandle, marked_iff]
      refine exists_congr fun m => ?_
      rw [hany]
      refine ⟨fun hm => ⟨?_, hm⟩, And.right⟩
      rintro rfl
      rw [hout] at hm
      cases hm
    rw [hflush]
    split
    · next hm => rw [freeEnded_keeps_marked (hmarked.mpr hm), hslot]
    · next hm =>
      rw [foldl_freeEnded_of_unmarked ((hlease j).trans hl) hdead (Bool.eq_false_iff.mpr fun hk => hm (hmarked.mp hk)) hj, hslot]

theorem endings_flush_of_closing {n : TenantId} {g : Happening} (hn : n ≠ admin) (ha : g.answers = [])
    (hclosing : (g.st.tenant n).state = .closing) (hout : (g.st.tenant n).outbound = []) : TeardownEnds n g g.endings.flush := by
  obtain ⟨hends, htenant⟩ := endings_endsAround hn hclosing
  exact flush_of_ended hends ha hclosing hout htenant (endings_queue g)

end Sys2Proof.Machine

/-! PROOFS. CLOSE_TENANT of any tenant (R150, R154, R158): what its teardown leaves of leases, contexts and offers. -/

namespace Sys2Proof.Machine

/-! ### One slot in a stop of many leases (log entry 8) -/

theorem stop_of_isSome {l : Lease} (h : l.stop?.isSome = true) : ∃ stop, l.state = .stopping stop := by
  unfold Lease.stop? at h
  split at h
  · next stop hs => exact ⟨stop, hs⟩
  · cases h

theorem stopCause_of_stopping {h : Happening} {i : SlotId} {l : Lease} {stop : StopRecord} {cause : StopCause}
    (hs : l.state = .stopping stop) (he : cause ≠ .emergency) : h.stopCause i l cause = h := by
  unfold Happening.stopCause
  simp only [hs, if_neg he]

section
variable {cause : StopCause} {p : Lease → Bool} {g : Happening} {j : SlotId} {l : Lease}

theorem stopSlot_carriesOn (g : Happening) (i : SlotId) : g.CarriesOn (g.stopSlot cause p i) := by
  unfold Happening.stopSlot
  split
  · next l hl =>
    split
    · exact stopCause_carriesOn hl cause
    · exact .refl g
  · exact .refl g

theorem stopSlot_otherSlots (hf : cause ≠ .fault) (hs : cause ≠ .shed) (g : Happening) {i : SlotId} (hj : j ≠ i) :
    (g.stopSlot cause p i).st.slot j = g.st.slot j := by
  unfold Happening.stopSlot
  split
  · next l hl =>
    split
    · exact (stopCause_effect g i l cause hl hf hs).1 j hj
    · rfl
  · rfl

/-- A lease that the cause does not reach, or that is STOPPING already, is left as it is. -/
theorem foldl_stopSlot_keeps (hf : cause ≠ .fault) (hs : cause ≠ .shed) (he : cause ≠ .emergency) (slots : List SlotId)
    (g : Happening) (hk : ∀ l, g.st.lease? j = some l → (l.live && p l) = true → l.stop?.isSome = true) :
    (slots.foldl (Happening.stopSlot cause p) g).st.slot j = g.st.slot j ∧
      g.CarriesOn (slots.foldl (Happening.stopSlot cause p) g) := by
  induction slots generalizing g with
  | nil => exact ⟨rfl, .refl g⟩
  | cons i slots ih =>
    have hone : (g.stopSlot cause p i).st.slot j = g.st.slot j := by
      by_cases hj : j = i
      · subst hj
        unfold Happening.stopSlot
        split
        · next l hl =>
          split
          · next hreach =>
            obtain ⟨stop, hstop⟩ := stop_of_isSome (hk l hl hreach)
            rw [stopCause_of_stopping hstop he]
          · rfl
        · rfl
      · exact stopSlot_otherSlots hf hs g hj
    obtain ⟨hslot, hon⟩ := ih (g.stopSlot cause p i) (by rw [State.lease?, hone]; exact hk)
    exact ⟨hslot.trans hone, (stopSlot_carriesOn g i).trans hon⟩

/-- A lease that the cause reaches is stopped once, in a happening that has come to its slot. -/
theorem foldl_stopSlot_at (hf : cause ≠ .fault) (hs : cause ≠ .shed) (he : cause ≠ .emergency) (slots : List SlotId)
    (hj : j ∈ slots) (g : Happening) (hl : g.st.lease? j = some l) (hreach : (l.live && p l) = true) :
    ∃ k, g.CarriesOn k ∧ k.st.slot j = g.st.slot j ∧
      (k.stopCause j l cause).CarriesOn (slots.foldl (Happening.stopSlot cause p) g) ∧
      (slots.foldl (Happening.stopSlot cause p) g).st.slot j = (k.stopCause j l cause).st.slot j := by
  induction slots generalizing g with
  | nil => exact absurd hj List.not_mem_nil
  | cons i slots ih =>
    by_cases hji : j = i
    · subst hji
      have hstop : g.stopSlot cause p j = g.stopCause j l cause := by
        unfold Happening.stopSlot
        simp only [hl, hreach, if_true]
      obtain ⟨-, -, ⟨y, hy, hstopped⟩, -⟩ := stopCause_effect g j l cause hl hf hs
      obtain ⟨hslot, hon⟩ := foldl_stopSlot_keeps (p := p) (j := j) hf hs he slots (g.stopCause j l cause) (by
        intro z hz hlive
        rw [hy] at hz
        cases hz
        obtain ⟨stop, hs', -⟩ := hstopped (Bool.and_eq_true _ _ ▸ hlive).1
        rw [Lease.stop?, hs']
        rfl)
      rw [List.foldl_cons, hstop]
      exact ⟨g, .refl g, rfl, hon, hslot⟩
    · have hone := stopSlot_otherSlots (p := p) hf hs g hji
      obtain ⟨k, hk, hslot, hon, hend⟩ := ih ((List.mem_cons.mp hj).resolve_left hji) (g.stopSlot cause p i)
        (by rw [State.lease?, hone]; exact hl)
      exact ⟨k, (stopSlot_carriesOn g i).trans hk, hslot.trans hone, hon, hend⟩

theorem stopAll_keeps (hf : cause ≠ .fault) (hs : cause ≠ .shed) (he : cause ≠ .emergency) (h : Happening)
    (hk : ∀ l, h.st.lease? j = some l → (l.live && p l) = true → l.stop?.isSome = true) :
    (h.stopAll cause p).st.slot j = h.st.slot j := by
  unfold Happening.stopAll
  exact (foldl_stopSlot_keeps hf hs he _ (h.map State.chosen) hk).1

theorem stopAll_carriesOn (h : Happening) : h.CarriesOn (h.stopAll cause p) := by
  have hchosen : h.CarriesOn (h.map State.chosen) := .of_map rfl rfl fun _ hr => hr
  unfold Happening.stopAll
  generalize freeOrder h.st.choices Fin.val (List.finRange 16) = slots
  generalize h.map State.chosen = g at hchosen ⊢
  induction slots generalizing g with
  | nil => exact hchosen
  | cons i slots ih => exact ih _ (hchosen.trans (stopSlot_carriesOn g i))

theorem stopAll_at (hf : cause ≠ .fault) (hs : cause ≠ .shed) (he : cause ≠ .emergency) {h : Happening}
    (hl : h.st.lease? j = some l) (hreach : (l.live && p l) = true) :
    ∃ k, h.CarriesOn k ∧ k.st.slot j = h.st.slot j ∧ (k.stopCause j l cause).CarriesOn (h.stopAll cause p) ∧
      (h.stopAll cause p).st.slot j = (k.stopCause j l cause).st.slot j := by
  have hchosen : h.CarriesOn (h.map State.chosen) := .of_map rfl rfl fun _ hr => hr
  have hall : j ∈ freeOrder h.st.choices Fin.val (List.finRange 16) := (mem_freeOrder _ _ _ _).mpr (List.mem_finRange j)
  unfold Happening.stopAll
  obtain ⟨k, hk, hslot, hon, hend⟩ := foldl_stopSlot_at hf hs he _ hall (h.map State.chosen) hl hreach
  exact ⟨k, hchosen.trans hk, hslot, hon, hend⟩

end

/-! ### The record of a lease that stops (R9, R112) -/

theorem applyChanges_rails (changes : List MemberChange) (ms : List Member) :
    (applyChanges changes ms).map Member.rail = ms.map Member.rail := by
  unfold applyChanges
  refine List.ext_getElem (by simp) fun k _ _ => ?_
  simp only [List.getElem_map, List.getElem_mapIdx]
  unfold changedMember
  split <;> rfl

theorem resolved_rails (l : Lease) (cause : StopCause) : (l.resolved cause).members.map Member.rail = l.members.map Member.rail := by
  unfold Lease.resolved
  split
  · exact applyChanges_rails _ _
  · rfl

theorem resolved_count (l : Lease) (cause : StopCause) : (l.resolved cause).count = l.count := by
  unfold Lease.resolved
  split <;> rfl

/-- A SEQUENCED stop of a running lease with a member not down. -/
theorem stopLease_slot {h : Happening} {i : SlotId} {l : Lease} {cause : StopCause} (hcause : cause ≠ .emergency)
    (hup : ∃ m ∈ l.members, (h.st.rail m.rail).down = false) :
    ∃ turn, (h.stopLease i l cause none).st.slot i =
      { h.st.slot i with
        lease := some { l.stopped cause none with state := .stopping { stopRecord l cause none with inTurn := turn } } } := by
  obtain ⟨m, hm, hdown⟩ := hup
  have hrails : ∀ r, (h.enterStopping i l cause none).st.rail r = h.st.rail r := by
    intro r
    rw [enterStopping_eq]
    rfl
  have hnot : (h.enterStopping i l cause none).st.allDown (l.stopped cause none).members = false := by
    have hmem : m.rail ∈ (l.stopped cause none).members.map Member.rail :=
      (resolved_rails l cause).symm ▸ List.mem_map_of_mem hm
    obtain ⟨m', hm', hr⟩ := List.mem_map.mp hmem
    rw [State.allDown, List.all_eq_false]
    exact ⟨m', hm', by rw [hrails, hr, hdown]; exact Bool.false_ne_true⟩
  have hmode : (stopRecord l cause none).mode = .sequenced := if_neg hcause
  have hslot : (h.enterStopping i l cause none).st.slot i = { h.st.slot i with lease := some (l.stopped cause none) } := by
    rw [enterStopping_eq]
    exact (slot_setLease h.st i i _).trans (if_pos rfl)
  rw [stopLease_eq, beginStop_turns hnot hmode, (takeTurn_effect _ _ _ _).1, if_pos rfl, hslot]
  exact ⟨_, rfl⟩

/-! ### Offers withdrawn (R150) -/

/-- The ownership of a rail once the offers a tenant has part in are removed. -/
def Ownership.without (n : TenantId) (o : Ownership) : Ownership :=
  match o.offer with
  | some x => if x.offerer = n ∨ x.target = n then { o with offer := none } else o
  | none => o

theorem Ownership.without_without (n : TenantId) (o : Ownership) : (o.without n).without n = o.without n := by
  unfold Ownership.without
  cases ho : o.offer with
  | none => simp only [ho]
  | some x =>
    by_cases hx : x.offerer = n ∨ x.target = n
    · simp only [if_pos hx]
    · simp only [if_neg hx, ho]

theorem withdrawFor_effect (h : Happening) (n : TenantId) (r : RailId) :
    h.CarriesOn (h.withdrawFor n r) ∧ (h.withdrawFor n r).st.slots = h.st.slots ∧ (h.withdrawFor n r).st.queue = h.st.queue ∧
      ∀ q, (h.withdrawFor n r).st.owned q = if q = r then (h.st.owned r).without n else h.st.owned q := by
  have hsame : h.st.owned r = (h.st.owned r).without n →
      ∀ q, h.st.owned q = if q = r then (h.st.owned r).without n else h.st.owned q := by
    intro k q
    split
    · next hq => rw [hq]; exact k
    · rfl
  unfold Happening.withdrawFor
  split
  · next o ho =>
    have hother : o.other n = none ↔ ¬(o.offerer = n ∨ o.target = n) := by
      unfold Offer.other
      by_cases h1 : o.offerer = n
      · simp [h1]
      · by_cases h2 : o.target = n
        · simp [h1, h2]
        · simp [h1, h2]
    split
    · next m hm =>
      have hpart : o.offerer = n ∨ o.target = n := by
        by_contra k
        rw [hother.mpr k] at hm
        cases hm
      refine ⟨{ Happening.CarriesOn.refl h with marks := List.prefix_append _ _, told := fun t y reason hy hn => ?_ }, rfl, rfl,
        fun q => ?_⟩
      · obtain hy | hy := List.mem_append.mp hy
        · exact absurd hy hn
        · cases List.mem_singleton.mp hy
      · refine (State.owned_setOwned h.st r q _).trans ?_
        rw [Ownership.without, ho]
        simp only [if_pos hpart]
    · next hm =>
      refine ⟨.refl h, rfl, rfl, hsame ?_⟩
      rw [Ownership.without, ho]
      simp only [if_neg (hother.mp hm)]
  · next ho =>
    refine ⟨.refl h, rfl, rfl, hsame ?_⟩
    rw [Ownership.without, ho]

theorem withdrawAll_effect (h : Happening) (n : TenantId) :
    h.CarriesOn (h.withdrawAll n) ∧ (h.withdrawAll n).st.slots = h.st.slots ∧ (h.withdrawAll n).st.queue = h.st.queue ∧
      ∀ q, (h.withdrawAll n).st.owned q = (h.st.owned q).without n := by
  have hall : ∀ q, q ∈ freeOrder h.st.choices Fin.val (List.finRange 12) := fun q =>
    (mem_freeOrder _ _ _ _).mpr (List.mem_finRange q)
  have hchosen : h.CarriesOn (h.map State.chosen) := .of_map rfl rfl fun _ hr => hr
  have hfold : ∀ (rails : List RailId) (g : Happening),
      g.CarriesOn (rails.foldl (Happening.withdrawFor n) g) ∧
        (rails.foldl (Happening.withdrawFor n) g).st.slots = g.st.slots ∧
        (rails.foldl (Happening.withdrawFor n) g).st.queue = g.st.queue ∧
        ∀ q, (rails.foldl (Happening.withdrawFor n) g).st.owned q =
          if q ∈ rails then (g.st.owned q).without n else g.st.owned q := by
    intro rails
    induction rails with
    | nil => exact fun g => ⟨.refl g, rfl, rfl, fun q => (if_neg List.not_mem_nil).symm⟩
    | cons r rails ih =>
      intro g
      obtain ⟨hon, hslots, hqueue, howned⟩ := withdrawFor_effect g n r
      obtain ⟨hon', hslots', hqueue', howned'⟩ := ih (g.withdrawFor n r)
      refine ⟨hon.trans hon', hslots'.trans hslots, hqueue'.trans hqueue, fun q => ?_⟩
      rw [List.foldl_cons, howned', howned]
      by_cases hq : q = r
      · subst hq
        simp only [if_true, List.mem_cons, true_or, Ownership.without_without, ite_self]
      · simp only [List.mem_cons, hq, false_or, if_false]
  obtain ⟨hon, hslots, hqueue, howned⟩ := hfold _ (h.map State.chosen)
  unfold Happening.withdrawAll
  exact ⟨hchosen.trans hon, hslots, hqueue, fun q => (howned q).trans (if_pos (hall q))⟩

/-! ### The scan (R83 to R85) -/

theorem walk_otherSlots {j : SlotId} (q : List QueueEntry) (hq : ∀ e ∈ q, e.handle.slot ≠ j) (h : Happening) (skipped : List Handle) :
    (h.walk skipped q).st.slot j = h.st.slot j := by
  induction q generalizing h skipped with
  | nil => rfl
  | cons e rest ih =>
    have hrest := ih fun e' he' => hq e' (List.mem_cons_of_mem _ he')
    unfold Happening.walk
    split
    · next l hl =>
      have hgrant := grantEntry_otherSlots h e l skipped (Ne.symm (hq e List.mem_cons_self))
      split
      · simp only
        split
        · exact hgrant
        · exact (hrest _ _).trans hgrant
      · split
        · rfl
        · exact hrest _ _
    · exact hrest _ _

theorem grantEntry_queue (h : Happening) (e : QueueEntry) (l : Lease) (skipped : List Handle) :
    ∀ x ∈ (h.grantEntry e l skipped).st.queue, ∃ y ∈ h.st.queue, y.handle = x.handle := by
  have hraise : ∀ (g : Happening) (l : Lease) (k : Nat), (g.raiseMember l k).st.queue = g.st.queue := by
    intro g l k
    unfold Happening.raiseMember
    split
    · simp only [Happening.map, State.enterRising]
      split <;> rfl
    · rfl
  intro x hx
  unfold Happening.grantEntry at hx
  simp only [hraise] at hx
  obtain ⟨y, hy, rfl⟩ := List.mem_map.mp hx
  refine ⟨y, List.mem_of_mem_filter hy, ?_⟩
  split
  · exact y.passed_handle.symm
  · rfl

theorem walk_queue (q : List QueueEntry) (h : Happening) (skipped : List Handle) :
    ∀ x ∈ (h.walk skipped q).st.queue, ∃ y ∈ h.st.queue, y.handle = x.handle := by
  induction q generalizing h skipped with
  | nil => exact fun x hx => ⟨x, hx, rfl⟩
  | cons e rest ih =>
    have hthrough : ∀ (l : Lease) (x : QueueEntry), (∃ y ∈ (h.grantEntry e l skipped).st.queue, y.handle = x.handle) →
        ∃ y ∈ h.st.queue, y.handle = x.handle := by
      rintro l x ⟨y, hy, hyx⟩
      obtain ⟨z, hz, hzy⟩ := grantEntry_queue h e l skipped y hy
      exact ⟨z, hz, hzy.trans hyx⟩
    unfold Happening.walk
    split
    · next l hl =>
      split
      · simp only
        split
        · exact fun x hx => hthrough l x ⟨x, hx, rfl⟩
        · exact fun x hx => hthrough l x (ih _ _ x hx)
      · split
        · exact fun x hx => ⟨x, hx, rfl⟩
        · exact ih _ _
    · exact ih _ _

/-! ### The first steps of a teardown (R158) -/

/-- A CLOSING tenant's block once its queue and its accesses are dropped, with a count in flight. -/
def Tenant.tornDown (x : Tenant) (k : Nat) : Tenant :=
  { x with
    state := .closing, scanPending := false, underWay := false, inFlight := k, outbound := [], intPending := false
    stalled := false, recheck := none, writer := x.writer.map WriterAccess.dropped }

/-- A happening after steps 1 to 3: the rings' side of the tenant is torn down, and nothing else has changed. -/
structure TeardownBegun (n : TenantId) (s : State) (g : Happening) : Prop where
  rings   : OnlyRings s g.st
  tenant  : ∃ k, g.st.tenant n = (s.tenant n).tornDown k
  others  : ∀ m, m ≠ n → (g.st.tenant m).outbound = (s.tenant m).outbound
  marks   : g.marks = []
  answers : g.answers = []
  freed   : ∀ y, .completion y ∈ (s.tenant n).outbound → g.st.context y.ctx = none
  taken   : ∀ d x, s.context d = some x → x.tenant = n → x.stage = .taken →
    (∀ e y, s.context e = some y → y.tenant = n → y.stage = .taken → e = d) → g.st.context d = none
  kept    : ∀ d x, s.context d = some x → x.tenant = n → x.stage ≠ .taken →
    (∀ y, .completion y ∈ (s.tenant n).outbound → y.ctx ≠ d) → g.st.context d = some { x with stage := x.stage.dropped }

/-- The happening of steps 1 to 3. -/
def State.teardownHappening (s : State) (c : CtxId) (n : TenantId) : Happening :=
  (({ s.begin with st := s.closingBegun c n } : Happening).discardQueue n).map fun s => s.dropContexts n

theorem isTaken_iff (stage : Stage) : stage.isTaken = true ↔ stage = .taken := by
  cases stage <;> simp [Stage.isTaken]

theorem teardownHappening_begun {s : State} {c : CtxId} {n : TenantId} {x : Context} (hx : s.context c = some x)
    (ht : x.tenant ≠ n) : TeardownBegun n s (s.teardownHappening c n) := by
  have htenants := closingBegun_tenant (n := n) hx
  have hcontexts := closingBegun_context (n := n) hx
  have hout : ((s.closingBegun c n).tenant n).outbound = (s.tenant n).outbound := by rw [htenants, if_pos rfl]
  obtain ⟨h, hh⟩ : ∃ h : Happening, h = { s.begin with
      st := (s.closingBegun c n).setTenant n { (s.closingBegun c n).tenant n with outbound := [] } } := ⟨_, rfl⟩
  have hst : h.st = (s.closingBegun c n).setTenant n { (s.closingBegun c n).tenant n with outbound := [] } := by rw [hh]
  have hg : s.teardownHappening c n = ((s.tenant n).outbound.foldl Happening.discard h).map fun s => s.dropContexts n := by
    rw [hh, ← hout]
    rfl
  have hdiscard := onlyRings_discardAll (s.tenant n).outbound h
  have hcontext := discardAll_context (s.tenant n).outbound h
  obtain ⟨htenant, hmarks, hanswers⟩ := discardAll_keeps (s.tenant n).outbound h
  generalize (s.tenant n).outbound.foldl Happening.discard h = b at hg hdiscard hcontext htenant hmarks hanswers
  have hb : ∀ d y, y.tenant = n → b.st.context d = some y → s.context d = some y := by
    intro d y hy hd
    rw [hcontext] at hd
    split at hd
    · cases hd
    · rw [hst] at hd
      have hd' := (hcontexts d).symm.trans hd
      split at hd'
      · cases hd'
        exact absurd hy ht
      · exact hd'
  have hcompletes : ∀ d, (s.tenant n).outbound.any (OutEntry.completes d) = true ↔
      ∃ y, .completion y ∈ (s.tenant n).outbound ∧ y.ctx = d := by
    intro d
    rw [List.any_eq_true]
    constructor
    · rintro ⟨e, he, hd⟩
      cases e with
      | completion y => exact ⟨y, he, beq_iff_eq.mp hd⟩
      | marker z r => cases hd
    · rintro ⟨y, hy, hd⟩
      exact ⟨_, hy, beq_iff_eq.mpr hd⟩
  have hkeep : ∀ d y, s.context d = some y → y.tenant = n → (s.tenant n).outbound.any (OutEntry.completes d) = false →
      b.st.context d = some y := by
    intro d y hd hy hnot
    rw [hcontext, hnot, if_neg Bool.false_ne_true, hst]
    refine (hcontexts d).trans ?_
    rw [if_neg]
    · exact hd
    · rintro rfl
      rw [hx] at hd
      cases hd
      exact ht hy
  have hrings : OnlyRings s h.st := hst ▸ (onlyRings_closingBegun s c n).trans (onlyRings_setTenant _ n _)
  rw [hg]
  refine ⟨(hrings.trans hdiscard).trans (onlyRings_dropContexts b.st n), ?_, fun m hm => ?_, hmarks.trans (by rw [hh]; rfl),
    hanswers.trans (by rw [hh]; rfl), fun y hy => ?_, fun d y hd hy htaken hunique => ?_, fun d y hd hy htaken hnot => ?_⟩
  · obtain ⟨k, hk⟩ := dropContexts_tenant b.st n n
    obtain ⟨k', hk'⟩ := htenant n
    refine ⟨k, hk.trans ?_⟩
    rw [if_pos rfl, hk', hst, State.tenant_setTenant_same, htenants, if_pos rfl]
    rfl
  · obtain ⟨k, hk⟩ := dropContexts_tenant b.st n m
    obtain ⟨k', hk'⟩ := htenant m
    refine (congrArg Tenant.outbound hk).trans ?_
    rw [if_neg hm, hk', hst, State.tenant_setTenant, if_neg hm, htenants, if_neg hm]
  · have hnone : b.st.context y.ctx = none := by rw [hcontext, if_pos ((hcompletes y.ctx).mpr ⟨y, hy, rfl⟩)]
    refine (dropContexts_context b.st n y.ctx).trans ?_
    rw [hnone]
    exact ite_self _
  · refine (dropContexts_context b.st n d).trans ?_
    cases hd' : b.st.context d with
    | none => exact ite_self _
    | some z =>
      have hz : some z = some y := by
        have hsome := hcontext d
        rw [hd'] at hsome
        split at hsome
        · cases hsome
        · rw [hst] at hsome
          have hsome' := hsome.trans (hcontexts d)
          rw [if_neg, hd] at hsome'
          · exact hsome'
          · rintro rfl
            rw [hx] at hd
            cases hd
            exact ht hy
      cases hz
      have hfind : b.st.findContext n Stage.isTaken = some (d, y) := by
        refine findContext_unique hd' hy ((isTaken_iff _).mpr htaken) fun e w hw hwt hwp => ?_
        exact hunique e w (hb e w hwt hw) hwt ((isTaken_iff _).mp hwp)
      rw [hfind]
      exact if_pos rfl
  · have hsome := hkeep d y hd hy (Bool.eq_false_iff.mpr fun k => by
      obtain ⟨z, hz, hzd⟩ := (hcompletes d).mp k
      exact hnot z hz hzd)
    refine (dropContexts_context b.st n d).trans ?_
    rw [hsome, if_neg]
    · exact congrArg some (if_pos hy)
    · intro k
      obtain ⟨found, hf, hfst⟩ := Option.map_eq_some_iff.mp k
      obtain ⟨hctx, -, hp⟩ := findContext_some (c := found.1) (x := found.2) hf
      rw [hfst, hsome] at hctx
      cases hctx
      exact htaken ((isTaken_iff _).mp hp)

end Sys2Proof.Machine

/-! PROOFS. CLOSE_TENANT of any tenant, assembled (R158): the run of a teardown through its happening, and what it comes to for the
tenant's leases and for every other's. -/

namespace Sys2Proof.Machine

/-! ### The run of a teardown -/

theorem grantEntry_check (h : Happening) (e : QueueEntry) (l : Lease) (skipped : List Handle) :
    (h.grantEntry e l skipped).check = h.check := by
  have hraise : ∀ (g : Happening) (l : Lease) (k : Nat), (g.raiseMember l k).check = g.check := by
    intro g l k
    unfold Happening.raiseMember
    split <;> rfl
  unfold Happening.grantEntry
  simp only [hraise]
  rfl

theorem walk_check (h : Happening) (skipped : List Handle) (q : List QueueEntry) : (h.walk skipped q).check = h.check := by
  induction q generalizing h skipped with
  | nil => rfl
  | cons e rest ih =>
    unfold Happening.walk
    split
    · next l _ =>
      split
      · simp only
        split
        · exact grantEntry_check h e l skipped
        · rw [ih, grantEntry_check]
      · split
        · rfl
        · exact ih _ _
    · exact ih _ _

/-- A teardown of a tenant's leases from the happening `b` of its first steps, by `d` with its leases stopped and `g` with the scan
made, to the state `u`. -/
structure TeardownRun (n : TenantId) (s : State) (b d g : Happening) (u : State) : Prop where
  begun   : TeardownBegun n s b
  stopped : d = b.stopAll .tenantClosed fun l => l.tenant == n
  after   : b.CarriesOn g
  onward  : d.CarriesOn g
  slots   : ∀ j, (∀ y, d.st.lease? j = some y → y.waits = true → y.tenant = n) → g.st.slot j = d.st.slot j
  queue   : ∀ e ∈ g.st.queue, ∃ y, d.st.lease? e.handle.slot = some y ∧ y.tenant ≠ n
  ends    : TeardownEnds n g u
  owned   : ∀ r, u.owned r = (s.owned r).without n

theorem checked_carriesOn (h : Happening) : h.CarriesOn h.checked := { Happening.CarriesOn.refl h with side := rfl }

theorem tearDown_runs {s : State} {c : CtxId} {n : TenantId} {x : Context} (hx : s.context c = some x) (ht : x.tenant = admin)
    (hn : n ≠ admin) (hq : ∀ e ∈ s.queue, ∃ l, s.resolve e.handle = some l ∧ l.waits = true) :
    ∃ b d g, TeardownRun n s b d g (s.begin.tearDown c n).settle := by
  have hbegun : TeardownBegun n s (s.teardownHappening c n) := teardownHappening_begun hx fun k => hn (k.symm.trans ht)
  have htear : s.begin.tearDown c n =
      (((s.teardownHappening c n).stopAll .tenantClosed fun l => l.tenant == n).withdrawAll n).checked := rfl
  rw [htear]
  generalize s.teardownHappening c n = b at hbegun ⊢
  have hqueued : ∀ e ∈ b.st.queue, ∃ l, b.st.resolve e.handle = some l ∧ l.waits = true := by
    intro e he
    rw [hbegun.rings.queue] at he
    obtain ⟨l, hl, hw⟩ := hq e he
    exact ⟨l, (resolve_congr (hbegun.rings.slot _)).trans hl, hw⟩
  obtain ⟨-, hstopped, -⟩ := stopAll_reached (cause := .tenantClosed) (p := fun l => l.tenant == n) (by decide)
    (by decide) hqueued
  have hstop : b.CarriesOn (b.stopAll .tenantClosed fun l => l.tenant == n) := stopAll_carriesOn b
  have hsetup := Happening.stopAll_setup b .tenantClosed fun l => l.tenant == n
  obtain ⟨d, hd⟩ : ∃ d, d = b.stopAll .tenantClosed fun l => l.tenant == n := ⟨_, rfl⟩
  rw [← hd] at hstopped hstop hsetup ⊢
  obtain ⟨hwithdraw, hslots, hqueue, howned⟩ := withdrawAll_effect d n
  generalize d.withdrawAll n = w at hwithdraw hslots hqueue howned ⊢
  have hopen : ∀ r, w.checked.settle.owned r = (s.owned r).without n := by
    intro r
    have hown : w.checked.settle.ownership = w.st.ownership := setup_ownership (Happening.settle_setup w.checked)
    have hown' : d.st.owned r = s.owned r :=
      (congrArg (fun v => vget v r) (setup_ownership hsetup)).trans (hbegun.rings.owned r)
    refine (congrArg (fun v => vget v r) hown).trans ((howned r).trans ?_)
    rw [hown']
  obtain ⟨g, hg, hscan, hscanned, hentries, hcheck⟩ : ∃ g, g = (if w.checked.rise then w.checked.scan else w.checked) ∧
      w.checked.CarriesOn g ∧ (∀ j, (∀ e ∈ w.st.queue, e.handle.slot ≠ j) → g.st.slot j = w.st.slot j) ∧
      (∀ e ∈ g.st.queue, ∃ y ∈ w.st.queue, y.handle = e.handle) ∧ g.check = true := by
    refine ⟨_, rfl, ?_⟩
    split
    · exact ⟨walk_carriesOn _ _ _, fun j hj => walk_otherSlots w.st.queue hj w.checked [], walk_queue _ _ _,
        (walk_check _ _ _).trans rfl⟩
    · exact ⟨.refl _, fun _ _ => rfl, fun e he => ⟨e, he, rfl⟩, rfl⟩
  have honward : d.CarriesOn g := (hwithdraw.trans (checked_carriesOn w)).trans hscan
  have hafter : b.CarriesOn g := hstop.trans honward
  have hsettle : w.checked.settle = g.endings.flush := by
    unfold Happening.settle
    simp only [← hg, hcheck, if_true]
  obtain ⟨k, hk⟩ := hbegun.tenant
  have htenant : g.st.tenant n = (s.tenant n).tornDown k := (side_tenant hafter.side n).trans hk
  refine ⟨b, d, g, hbegun, hd, hafter, honward, fun j hj => ?_, fun e he => ?_, ?_, hopen⟩
  · refine (hscanned j fun e he => ?_).trans (congrArg (fun v => vget v j) hslots)
    rw [hqueue] at he
    obtain ⟨y, hy, hw, hp⟩ := hstopped e he
    obtain ⟨-, hlease, -⟩ := resolve_slot hy
    rintro rfl
    rw [hj y hlease hw, beq_self_eq_true] at hp
    cases hp
  · obtain ⟨y, hy, hye⟩ := hentries e he
    rw [hqueue] at hy
    obtain ⟨z, hz, -, hp⟩ := hstopped y hy
    obtain ⟨-, hlease, -⟩ := resolve_slot hz
    exact ⟨z, hye ▸ hlease, beq_eq_false_iff_ne.mp hp⟩
  · rw [hsettle]
    refine endings_flush_of_closing hn (hafter.answers.trans hbegun.answers) ?_ ?_
    · rw [htenant]; rfl
    · rw [htenant]; rfl

/-! ### What a teardown comes to for each lease -/

namespace TeardownRun
variable {n : TenantId} {s u : State} {b d g : Happening} {j : SlotId} {l : Lease}

theorem start_lease (R : TeardownRun n s b d g u) (hl : s.lease? j = some l) : b.st.lease? j = some l :=
  (R.begun.rings.lease? j).trans hl

/-- A live lease that the stops leave as it is, and that no scan can grant, is as it was. -/
theorem keeps (R : TeardownRun n s b d g u) (hl : s.lease? j = some l) (hlive : l.live = true)
    (hk : l.tenant = n → l.stop?.isSome = true) (hw : l.waits = true → l.tenant = n) : u.slot j = s.slot j := by
  have hd : d.st.slot j = s.slot j := by
    have hkeep : (b.stopAll .tenantClosed fun l => l.tenant == n).st.slot j = b.st.slot j := by
      refine stopAll_keeps (by decide) (by decide) (by decide) b fun y hy hreach => ?_
      rw [R.start_lease hl] at hy
      cases hy
      rw [hlive, Bool.true_and] at hreach
      exact hk (beq_iff_eq.mp hreach)
    rw [R.stopped]
    exact hkeep.trans (R.begun.rings.slot j)
  have hdl : d.st.lease? j = some l := by rw [State.lease?, hd]; exact hl
  have hg : g.st.slot j = d.st.slot j := R.slots j fun y hy hyw => by
    rw [hdl] at hy
    cases hy
    exact hw hyw
  exact (R.ends.live j l (by rw [State.lease?, hg]; exact hdl) hlive).trans (hg.trans hd)

/-- A lease of the tenant that is not STOPPING is stopped with TENANT_CLOSED; the happening comes to its slot as it was. -/
theorem stops (R : TeardownRun n s b d g u) (hl : s.lease? j = some l) (hlive : l.live = true) (ht : l.tenant = n) :
    ∃ k, b.CarriesOn k ∧ k.st.slot j = s.slot j ∧ (k.stopCause j l .tenantClosed).CarriesOn g ∧
      d.st.slot j = (k.stopCause j l .tenantClosed).st.slot j := by
  obtain ⟨k, hk, hslot, hon, hend⟩ := stopAll_at (cause := .tenantClosed) (p := fun l => l.tenant == n) (fun k => nomatch k)
    (fun k => nomatch k) (fun k => nomatch k) (R.start_lease hl) (by rw [hlive, ht, beq_self_eq_true]; rfl)
  rw [← R.stopped] at hon hend
  exact ⟨k, hk, hslot.trans (R.begun.rings.slot j), hon.trans R.onward, hend⟩

/-- A running lease of the tenant with a member not down is STOPPING. -/
theorem running (R : TeardownRun n s b d g u) (hl : s.lease? j = some l) (ht : l.tenant = n)
    (hs : l.state = .active ∨ (∃ p, l.state = .starting p) ∨ ∃ a, l.state = .adjusting a)
    (hup : ∃ m ∈ l.members, (s.rail m.rail).down = false) :
    ∃ turn, u.slot j =
      { s.slot j with
        lease := some
          { l.stopped .tenantClosed none with
            state := .stopping { stopRecord l .tenantClosed none with inTurn := turn } } } := by
  have hlive : l.live = true := by
    unfold Lease.live
    obtain hs | ⟨p, hs⟩ | ⟨a, hs⟩ := hs <;> rw [hs]
  obtain ⟨k, hk, hslot, hon, hend⟩ := R.stops hl hlive ht
  have hstop : k.stopCause j l .tenantClosed = k.stopLease j l .tenantClosed none := by
    unfold Happening.stopCause
    obtain hs | ⟨p, hs⟩ | ⟨a, hs⟩ := hs <;> simp only [hs]
  obtain ⟨m, hm, hdown⟩ := hup
  have hdown' : (k.st.rail m.rail).down = false := hk.up m.rail (by rw [R.begun.rings.rail]; exact hdown)
  obtain ⟨turn, hturn⟩ := stopLease_slot (h := k) (i := j) (cause := .tenantClosed) (fun k => nomatch k) ⟨m, hm, hdown'⟩
  rw [hstop, hturn, hslot] at hend
  have hdl : d.st.lease? j = _ := congrArg Slot.lease hend
  have hg : g.st.slot j = d.st.slot j := R.slots j fun y hy hyw => by
    rw [hdl] at hy
    cases hy
    cases hyw
  exact ⟨turn, (R.ends.live j _ (by rw [State.lease?, hg]; exact hdl) rfl).trans (hg.trans hend)⟩

/-- A lease of the tenant that waits is ENDED, and its slot is freed unless another tenant's queue marks it. -/
theorem waiting (R : TeardownRun n s b d g u) (hl : s.lease? j = some l) (ht : l.tenant = n)
    (hs : l.waits = true ∨ ∃ t, l.state = .retryWait t) :
    (s.MarkedElsewhere n (s.handleOf j) →
      u.slot j =
        { gen := (s.slot j).gen
          lease := some { l with state := .ended .tenantClosed, term := none, count := l.count + 1 } }) ∧
    (¬s.MarkedElsewhere n (s.handleOf j) → u.slot j = { gen := nextGen (s.slot j).gen, lease := none }) := by
  have hstate : l.state = .waiting ∨ l.state = .suspended ∨ ∃ t, l.state = .retryWait t := by
    obtain hw | hs := hs
    · unfold Lease.waits at hw
      split at hw
      · next h => exact Or.inl h
      · next h => exact Or.inr (Or.inl h)
      · cases hw
    · exact Or.inr (Or.inr hs)
  have hlive : l.live = true := by
    unfold Lease.live
    obtain h | h | ⟨t, h⟩ := hstate <;> rw [h]
  obtain ⟨k, hk, hslot, hon, hend⟩ := R.stops hl hlive ht
  have hstop : k.stopCause j l .tenantClosed = k.endLease j l .tenantClosed := by
    unfold Happening.stopCause
    obtain h | h | ⟨t, h⟩ := hstate <;> simp only [h] <;> rfl
  obtain ⟨hended, -, -⟩ := endLease_effect k j l .tenantClosed
  rw [hstop, hended, if_pos rfl, hslot] at hend
  have hdl : d.st.lease? j = _ := congrArg Slot.lease hend
  have hg : g.st.slot j = _ := (R.slots j fun y hy hyw => by
    rw [hdl] at hy
    cases hy
    cases hyw).trans hend
  have hloose : j ∈ g.loose := by
    rw [hstop, endLease_eq] at hon
    exact hon.loose.subset (List.mem_append_right _ (List.mem_singleton_self j))
  have hhandle : g.st.handleOf j = s.handleOf j := by rw [State.handleOf, hg, State.handleOf]
  have huntold : ∀ m reason, m ≠ n → (m, Subject.lease (g.st.handleOf j), reason) ∉ g.marks := by
    intro m reason hm hmem
    have hnew := R.after.told m (g.st.handleOf j) reason hmem (by rw [R.begun.marks]; exact List.not_mem_nil)
    rw [show (g.st.handleOf j).slot = j from rfl, R.start_lease hl] at hnew
    exact hm ((Option.some.inj hnew).symm.trans ht)
  have hmarked : (∃ m, m ≠ n ∧ (g.st.tenant m).outbound.any (OutEntry.isMarker (.lease (g.st.handleOf j))) = true) ↔
      s.MarkedElsewhere n (s.handleOf j) := by
    unfold State.MarkedElsewhere
    refine exists_congr fun m => ?_
    rw [hhandle]
    constructor
    · rintro ⟨hm, hany⟩
      rw [side_tenant R.after.side, R.begun.others m hm, List.any_eq_true] at hany
      obtain ⟨e, he, hx⟩ := hany
      cases e with
      | completion c => cases hx
      | marker y reason => exact ⟨reason, hm, beq_iff_eq.mp hx ▸ he⟩
    · rintro ⟨reason, hm, he⟩
      refine ⟨hm, ?_⟩
      rw [side_tenant R.after.side, R.begun.others m hm, List.any_eq_true]
      exact ⟨_, he, beq_self_eq_true _⟩
  have hu := R.ends.ended j _ (congrArg Slot.lease hg) rfl hloose huntold
  refine ⟨fun hm => ?_, fun hm => ?_⟩
  · rw [hu, if_pos (hmarked.mpr hm), hg]
  · rw [hu, if_neg fun k => hm (hmarked.mp k), hg]

end TeardownRun

/-- Settles O39: each clause from the run of the teardown. -/
theorem closeTenantTearsDown : Obligations.CloseTenantTearsDown := by
  intro s c n H hs hn hopen hq
  obtain ⟨x, hx, ht, -, -⟩ := takenCommand_context H
  have hexec := exec_closeTenant H hs hn (hears_of_open hopen)
  obtain ⟨b, d, g, R⟩ := tearDown_runs hx ht hn hq
  generalize (s.begin.tearDown c n).settle = u at hexec R
  obtain ⟨k, hk⟩ := R.begun.tenant
  have htenant := R.ends.tenant
  rw [side_tenant R.after.side, hk] at htenant
  have hpool : ∀ e, g.st.context e = b.st.context e := fun e =>
    congrArg (fun y : TenantSide => vget y.pool e) R.after.side
  refine ⟨u, hexec, ?_, ?_, ?_, ?_, ?_, ?_, ?_, fun j l hl ht => ⟨fun hstop => ?_, fun hruns hup => ?_, fun hwaits => ?_⟩,
    fun j l hl ht hlive hw => ?_, fun e he l hl => ?_, fun y hy => ?_, fun e y he hy htaken hunique => ?_,
    fun e y he hy htaken hnot => ?_, fun r => ?_⟩
  · rw [htenant]
    split <;> rfl
  · rw [htenant]
    split <;> rfl
  · show (u.tenant n).intPending = false
    rw [htenant]
    split <;> rfl
  · rw [htenant]
    split <;> rfl
  · rw [htenant]
    split <;> rfl
  · rw [htenant]
    split <;> rfl
  · rw [htenant]
    split <;> rfl
  · obtain ⟨stop, hs'⟩ := stop_of_isSome hstop
    refine R.keeps hl (by rw [Lease.live, hs']) (fun _ => hstop) fun hw => ?_
    rw [Lease.waits, hs'] at hw
    cases hw
  · obtain ⟨turn, hu⟩ := R.running hl ht hruns hup
    exact ⟨_, _, hu, (resolved_tenant l _).trans ht, resolved_charge l (fun k => nomatch k), resolved_rails l _,
      congrArg (· + 1) (resolved_count l _), rfl, rfl, rfl, rfl, rfl⟩
  · exact R.waiting hl ht hwaits
  · exact R.keeps hl hlive (fun k => absurd k ht) fun k => by rw [hw] at k; cases k
  · rw [R.ends.queue] at he
    obtain ⟨y, hy, hyn⟩ := R.queue e he
    have howner : (d.st.lease? e.handle.slot).map Lease.tenant = (s.lease? e.handle.slot).map Lease.tenant := by
      have hstop : b.CarriesOn d := R.stopped ▸ stopAll_carriesOn b
      rw [hstop.owner, R.begun.rings.lease?]
    rw [hy, hl] at howner
    exact fun k => hyn ((Option.some.inj howner).trans k)
  · exact R.ends.free _ ((hpool _).trans (R.begun.freed y hy))
  · exact R.ends.free _ ((hpool _).trans (R.begun.taken e y he hy htaken hunique))
  · exact (R.ends.held e { y with stage := y.stage.dropped } hy).mpr ((hpool e).trans (R.begun.kept e y he hy htaken hnot))
  · rw [R.owned]
    unfold Ownership.without
    cases ho : (s.owned r).offer with
    | none => exact ⟨rfl, ho⟩
    | some o =>
      by_cases hpart : o.offerer = n ∨ o.target = n
      · simp only [if_pos hpart, and_self]
      · simp only [if_neg hpart]
        exact ⟨trivial, ho⟩

end Sys2Proof.Machine

/-! PROOFS. Submission records: what the layouts of R195 write is what they read. A record is a row of segments, so each field is
found by passing the segments before it. -/

namespace Sys2Proof.Machine

/-! ### Segments of a record -/

@[simp] theorem length_le (n v : Nat) : (le n v).length = n := by
  induction n generalizing v with
  | zero => rfl
  | succ n ih => simp [le, ih]

@[simp] theorem length_zeros (n : Nat) : (zeros n).length = n := List.length_replicate

/-- A byte behind a segment. -/
theorem byteAt_append {a : List Byte} {i : Nat} (h : a.length ≤ i) (b : List Byte) :
    byteAt (a ++ b) i = byteAt b (i - a.length) :=
  List.getD_append_right a b 0 i h

/-- A field behind a segment. -/
theorem uint_append {a : List Byte} {off : Nat} (h : a.length ≤ off) (b : List Byte) (n : Nat) :
    uint (a ++ b) off n = uint b (off - a.length) n := by
  induction n generalizing off with
  | zero => rfl
  | succ n ih =>
    have hnext : off + 1 - a.length = off - a.length + 1 := by omega
    rw [uint, uint, byteAt_append h, ih (by omega), hnext]

/-- A segment holds its value in its own bytes. -/
theorem uint_le_append {n v : Nat} (h : v < 256 ^ n) (b : List Byte) : uint (le n v ++ b) 0 n = v := by
  induction n generalizing v with
  | zero => simp_all [uint]
  | succ n ih =>
    have hquot : v / 256 < 256 ^ n := Nat.div_lt_of_lt_mul (by rwa [← Nat.pow_succ'])
    have hrest : uint (le (n + 1) v ++ b) 1 n = v / 256 := (uint_append (a := [BitVec.ofNat 8 v]) le_rfl _ n).trans (ih hquot)
    rw [uint, hrest]
    change v % 256 + 256 * (v / 256) = v
    omega

theorem uint_le_byte {v : Nat} (h : v < 256) (b : List Byte) : uint (le 1 v ++ b) 0 1 = v := uint_le_append (by simpa) b
theorem uint_le_half {v : Nat} (h : v < 65536) (b : List Byte) : uint (le 2 v ++ b) 0 2 = v := uint_le_append (by simpa) b
theorem uint_le_word {v : Nat} (h : v < 4294967296) (b : List Byte) : uint (le 4 v ++ b) 0 4 = v := uint_le_append (by simpa) b
theorem uint_le_long {v : Nat} (h : v < 18446744073709551616) (b : List Byte) : uint (le 8 v ++ b) 0 8 = v := uint_le_append (by simpa) b

/-- A one-byte segment as a byte. -/
theorem byteAt_le_append (v : Nat) (b : List Byte) : byteAt (le 1 v ++ b) 0 = BitVec.ofNat 8 v := rfl

/-! ### The parts of a record that repeat: member specs and tier entries -/

/-- The first offsets of a row of entries of one width. -/
theorem take_range' (k base n w : Nat) : (List.range' base n w).take k = List.range' base (min k n) w := by
  induction n generalizing k base with
  | zero => simp
  | succ n ih => cases k with
    | zero => rfl
    | succ k => rw [List.range'_succ, List.take_succ_cons, ih, Nat.add_min_add_right, List.range'_succ]

/-- Entries of one width, each of which reads back wherever it stands, read back from the row of them. -/
theorem map_read_flatMap {α : Type} {read : List Byte → Nat → α} {write : α → List Byte} {w : Nat} {xs : List α}
    (hw : ∀ x, (write x).length = w) (hread : ∀ x ∈ xs, ∀ a b, read (a ++ (write x ++ b)) a.length = x) (a b : List Byte) :
    (List.range' a.length xs.length w).map (read (a ++ (xs.flatMap write ++ b))) = xs := by
  induction xs generalizing a with
  | nil => rfl
  | cons x xs ih =>
    have hrest := ih (fun y hy => hread y (.tail _ hy)) (a ++ write x)
    rw [List.length_append, hw x] at hrest
    simp only [List.flatMap_cons, List.append_assoc, List.length_cons, List.range'_succ, List.map_cons] at hrest ⊢
    rw [hread x List.mem_cons_self, hrest]

@[simp] theorem MemberSpec.length_write (m : MemberSpec) : m.write.length = 12 := by
  cases m <;> simp [MemberSpec.write]

@[simp] theorem TierEntry.length_write (t : TierEntry) : t.write.length = 9 := by simp [TierEntry.write]

theorem readSpec_append (a b : List Byte) : readSpec (a ++ b) a.length = readSpec b 0 := by
  simp [readSpec, uint_append]

theorem readTier_append (a b : List Byte) : readTier (a ++ b) a.length = readTier b 0 := by
  simp [readTier, uint_append]

/-- The tier byte of an explicit spec is below 0xFF, which marks an automatic one. -/
theorem readSpec_write {m : MemberSpec} (h : m.fits = true) (b : List Byte) : readSpec (m.write ++ b) 0 = m := by
  cases m with
  | explicit rail tier stepDelay voltage current =>
    obtain ⟨hrail, htier, hdelay, hvoltage, hcurrent⟩ := of_decide_eq_true h
    have htier' : tier < 256 := by omega
    simp [readSpec, MemberSpec.write, uint_append, uint_le_byte, uint_le_half, *, htier.ne]
  | auto rail stepDelay preference low high minPower maxCurrent =>
    obtain ⟨hrail, hdelay, hpreference, hlow, hhigh, hmin, hmax⟩ := of_decide_eq_true h
    simp [readSpec, MemberSpec.write, uint_append, uint_le_byte, uint_le_half, *]

/-- The cap and the kind share a 3-byte word. -/
theorem readTier_write {t : TierEntry} (h : t.fits = true) (b : List Byte) : readTier (t.write ++ b) 0 = t := by
  obtain ⟨vmin, vmax, imax, cap, kind⟩ := t
  obtain ⟨hvmin, hvmax, himax, hcap, hkind⟩ :
      vmin < 65536 ∧ vmax < 65536 ∧ imax < 65536 ∧ cap < 2 ^ 21 ∧ kind < 4 := of_decide_eq_true h
  have hword : uint (le 3 (cap + 2 ^ 22 * kind) ++ b) 0 3 = cap + 2 ^ 22 * kind := uint_le_append (by omega) b
  have hlow : (cap + 2 ^ 22 * kind) % 2 ^ 21 = cap := by omega
  have hhigh : (cap + 2 ^ 22 * kind) / 2 ^ 22 = kind := by omega
  simp only [Nat.reducePow] at hword hlow hhigh
  simp [readTier, TierEntry.write, uint_append, uint_le_half, *]

theorem readSpecs_write {specs : List MemberSpec} {count : Nat} {a : List Byte} (ha : a.length = 16)
    (hcount : specs.length = min count 4) (h : specs.all MemberSpec.fits = true) (b : List Byte) :
    readSpecs (a ++ (specs.flatMap MemberSpec.write ++ b)) count = specs := by
  have hoffsets : [16, 28, 40, 52].take count = List.range' a.length specs.length 12 := by
    rw [ha, hcount, ← take_range']
    rfl
  rw [readSpecs, hoffsets]
  refine map_read_flatMap MemberSpec.length_write (fun m hm a b => ?_) a b
  rw [readSpec_append, readSpec_write (List.all_eq_true.mp h m hm)]

theorem readTiers_write {tiers : List TierEntry} {count : Nat} {a : List Byte} (ha : a.length = 10)
    (hcount : tiers.length = min count 6) (h : tiers.all TierEntry.fits = true) (b : List Byte) :
    readTiers (a ++ (tiers.flatMap TierEntry.write ++ b)) count = tiers := by
  have hoffsets : [10, 19, 28, 37, 46, 55].take count = List.range' a.length tiers.length 9 := by
    rw [ha, hcount, ← take_range']
    rfl
  rw [readTiers, hoffsets]
  refine map_read_flatMap TierEntry.length_write (fun t ht a b => ?_) a b
  rw [readTier_append, readTier_write (List.all_eq_true.mp h t ht)]

/-! ### A whole record -/

/-- The record's first 8 bytes, the same for every command. -/
def Command.header (tag : BitVec 16) (c : Command) : List Byte := le 1 1 ++ (le 1 c.kind ++ (le 2 tag.toNat ++ zeros 4))

@[simp] theorem Command.length_header (tag : BitVec 16) (c : Command) : (c.header tag).length = 8 := by simp [Command.header]

/-- A record is its header, its body and reserved bytes. -/
theorem Command.write_eq (tag : BitVec 16) (c : Command) :
    c.write tag = c.header tag ++ (c.body ++ zeros (56 - c.body.length)) := by
  have hfront : le 1 1 ++ le 1 c.kind ++ le 2 tag.toNat ++ zeros 4 ++ c.body = c.header tag ++ c.body := by
    simp [Command.header]
  have hpad : 64 - (c.header tag ++ c.body).length = 56 - c.body.length := by
    rw [List.length_append, length_header]
    omega
  rw [Command.write, hfront, hpad, List.append_assoc]

/-- A body has room in a record. -/
theorem Command.length_body {c : Command} (h : c.fits = true) : c.body.length ≤ 56 := by
  cases c with
  | claim a =>
    have hlen : a.specs.length = min a.count 4 := by simp_all [Command.fits]
    simp [Command.body, List.length_flatMap, hlen]
    omega
  | adjust handle count specs =>
    have hlen : specs.length = min count 4 := by simp_all [Command.fits]
    simp [Command.body, List.length_flatMap, hlen]
    omega
  | setTiers rail count tiers =>
    have hlen : tiers.length = min count 6 := by simp_all [Command.fits]
    simp [Command.body, List.length_flatMap, hlen]
    omega
  | _ => simp [Command.body, queryBody]

theorem Command.length_write (tag : BitVec 16) {c : Command} (h : c.fits = true) : (c.write tag).length = 64 := by
  have hbody := c.length_body h
  rw [Command.write_eq, List.length_append, List.length_append, length_header, length_zeros]
  omega

theorem recordTag_write (tag : BitVec 16) (c : Command) : recordTag (c.write tag) = tag := by
  have htag : uint (c.write tag) 2 2 = tag.toNat := by
    rw [Command.write_eq, Command.header]
    simp [uint_append, uint_le_half tag.isLt]
  rw [recordTag, htag, BitVec.ofNat_toNat, BitVec.setWidth_eq]

theorem recordKind_write (tag : BitVec 16) (c : Command) : (recordKind (c.write tag)).toNat = c.kind := by
  have hkind : recordKind (c.write tag) = BitVec.ofNat 8 c.kind := by
    rw [Command.write_eq, Command.header]
    simp [recordKind, byteAt_append, byteAt_le_append]
  rw [hkind]
  cases c <;> rfl

/-- A field of the body. -/
theorem uint_write {off : Nat} (h : 8 ≤ off) (tag : BitVec 16) (c : Command) (n : Nat) :
    uint (c.write tag) off n = uint (c.body ++ zeros (56 - c.body.length)) (off - 8) n := by
  rw [Command.write_eq, uint_append (by simpa), Command.length_header]

/-- A byte of the body. -/
theorem byteAt_write {i : Nat} (h : 8 ≤ i) (tag : BitVec 16) (c : Command) :
    byteAt (c.write tag) i = byteAt (c.body ++ zeros (56 - c.body.length)) (i - 8) := by
  rw [Command.write_eq, byteAt_append (by simpa), Command.length_header]

/-- The specs of a body stand behind its first 8 bytes. -/
theorem readSpecs_of_body {c : Command} {front : List Byte} {specs : List MemberSpec} {count : Nat}
    (hbody : c.body = front ++ specs.flatMap MemberSpec.write) (hfront : front.length = 8)
    (hcount : specs.length = min count 4) (h : specs.all MemberSpec.fits = true) (tag : BitVec 16) :
    readSpecs (c.write tag) count = specs := by
  have hwrite : c.write tag = (c.header tag ++ front) ++ (specs.flatMap MemberSpec.write ++ zeros (56 - c.body.length)) := by
    simp only [Command.write_eq, hbody, List.append_assoc]
  rw [hwrite, readSpecs_write (by simp [hfront]) hcount h]

/-- The tier entries of a body stand behind its first 2 bytes. -/
theorem readTiers_of_body {c : Command} {front : List Byte} {tiers : List TierEntry} {count : Nat}
    (hbody : c.body = front ++ tiers.flatMap TierEntry.write) (hfront : front.length = 2)
    (hcount : tiers.length = min count 6) (h : tiers.all TierEntry.fits = true) (tag : BitVec 16) :
    readTiers (c.write tag) count = tiers := by
  have hwrite : c.write tag = (c.header tag ++ front) ++ (tiers.flatMap TierEntry.write ++ zeros (56 - c.body.length)) := by
    simp only [Command.write_eq, hbody, List.append_assoc]
  rw [hwrite, readTiers_write (by simp [hfront]) hcount h]

/-- The three flags of a CLAIM share a byte. -/
theorem getElem_claimFlags (a b c : Bool) :
    (BitVec.ofNat 8 (flagBit a 0 + flagBit b 1 + flagBit c 2))[0] = a ∧
      (BitVec.ofNat 8 (flagBit a 0 + flagBit b 1 + flagBit c 2))[1] = b ∧
      (BitVec.ofNat 8 (flagBit a 0 + flagBit b 1 + flagBit c 2))[2] = c := by
  revert a b c; decide

theorem getElem_flagBit (a : Bool) : (BitVec.ofNat 8 (flagBit a 0))[0] = a := by revert a; decide

/-! ### Each kind of command -/

theorem read_write_claim {a : ClaimArgs} (h : (Command.claim a).fits = true) (tag : BitVec 16) :
    Command.read ((Command.claim a).write tag) = some (.claim a) := by
  obtain ⟨cls, resume, noWait, allowShort, term, wait, count, specs⟩ := a
  obtain ⟨hfields, hspecs⟩ := Bool.and_eq_true_iff.mp h
  obtain ⟨hcls, hterm, hwait, hcount, hlen⟩ :
    cls < 256 ∧ term < 65536 ∧ wait < 65536 ∧ count < 256 ∧ specs.length = min count 4 := of_decide_eq_true hfields
  have hread := readSpecs_of_body rfl (by simp) hlen hspecs tag (c := .claim
    { cls, resume, noWait, allowShort, term, wait, count, specs })
  obtain ⟨hresume, hnoWait, hshort⟩ := getElem_claimFlags resume noWait allowShort
  simp [Command.read, recordKind_write, Command.kind, uint_write, byteAt_write, Command.body, uint_append, byteAt_append,
    byteAt_le_append, uint_le_byte, uint_le_half, *]

theorem read_write_adjust {handle count : Nat} {specs : List MemberSpec} (h : (Command.adjust handle count specs).fits = true)
    (tag : BitVec 16) : Command.read ((Command.adjust handle count specs).write tag) = some (.adjust handle count specs) := by
  obtain ⟨hfields, hspecs⟩ := Bool.and_eq_true_iff.mp h
  obtain ⟨hhandle, hcount, hlen⟩ : handle < 65536 ∧ count < 256 ∧ specs.length = min count 4 := of_decide_eq_true hfields
  have hread := readSpecs_of_body rfl (by simp) hlen hspecs tag (c := .adjust handle count specs)
  simp [Command.read, recordKind_write, Command.kind, uint_write, Command.body, uint_append, uint_le_byte, uint_le_half, *]

theorem read_write_setTiers {rail count : Nat} {tiers : List TierEntry} (h : (Command.setTiers rail count tiers).fits = true)
    (tag : BitVec 16) : Command.read ((Command.setTiers rail count tiers).write tag) = some (.setTiers rail count tiers) := by
  obtain ⟨hfields, htiers⟩ := Bool.and_eq_true_iff.mp h
  obtain ⟨hrail, hcount, hlen⟩ : rail < 256 ∧ count < 256 ∧ tiers.length = min count 6 := of_decide_eq_true hfields
  have hread := readTiers_of_body rfl (by simp) hlen htiers tag (c := .setTiers rail count tiers)
  simp [Command.read, recordKind_write, Command.kind, uint_write, Command.body, uint_append, uint_le_byte, *]

theorem read_write_setRail {a : SetRailArgs} (h : (Command.setRail a).fits = true) (tag : BitVec 16) :
    Command.read ((Command.setRail a).write tag) = some (.setRail a) := by
  obtain ⟨rail, configured, floor, ceiling, currentCeiling, rampRate, allowance, discharge, retryLimit, backoffBase⟩ := a
  obtain ⟨hrail, hfloor, hceiling, hcurrent, hramp, hallowance, hdischarge, hretry, hbackoff⟩ :
    rail < 256 ∧ floor < 65536 ∧ ceiling < 65536 ∧ currentCeiling < 65536 ∧ rampRate < 65536 ∧ allowance < 65536 ∧
      discharge < 65536 ∧ retryLimit < 256 ∧ backoffBase < 65536 := of_decide_eq_true h
  have hconfigured := getElem_flagBit configured
  simp [Command.read, recordKind_write, Command.kind, readConfig, uint_write, byteAt_write, Command.body, uint_append,
    byteAt_append, byteAt_le_append, uint_le_byte, uint_le_half, *]

/-- A record is read as the command it was written for: each field is behind the fields before it, and fits its segment. -/
theorem Command.read_write {c : Command} (h : c.fits = true) (tag : BitVec 16) : Command.read (c.write tag) = some c := by
  cases c with
  | claim a => exact read_write_claim h tag
  | adjust handle count specs => exact read_write_adjust h tag
  | setTiers rail count tiers => exact read_write_setTiers h tag
  | setRail a => exact read_write_setRail h tag
  | startService | stopService => simp [Command.read, recordKind_write, Command.kind]
  | _ =>
    simp only [Command.fits, decide_eq_true_eq, Nat.reducePow] at h
    simp [Command.read, recordKind_write, Command.kind, uint_write, Command.body, queryBody, uint_append, uint_le_byte,
      uint_le_half, uint_le_word, uint_le_long, h]

/-- Settles O9: a record is a row of segments of known lengths; its tag and kind are in the header, its fields in the body. -/
theorem recordsReadBack : Obligations.RecordsReadBack := fun _ tag h =>
  ⟨Command.length_write tag h, recordTag_write tag _, Command.read_write h tag⟩

end Sys2Proof.Machine
